-- ==== Sys2Proof/Word.lean ====
section
/-! DEFINITION. The widths of the core (R5), each under a name of its own. A Bit Block of length n (R7) is a `BitVec n` whose
position 1 is its most significant bit. -/

namespace Sys2Proof

/-- `W_KEY`, `W_BLOCK` (R5): a master key, a plaintext or ciphertext block, a response. -/
abbrev Block := BitVec 64

/-- `W_CD` (R5): the key after PC-1, C ‖ D. -/
abbrev KeyPair := BitVec 56

/-- `W_HALFKEY` (R5): each of C and D. -/
abbrev HalfKey := BitVec 28

/-- `W_SUBKEY` (R5): a round key, and the expanded half-block. -/
abbrev SubKey := BitVec 48

/-- `W_HALF` (R5): a half-block, and the output of the S-box array. -/
abbrev Half := BitVec 32

/-- `W_CHUNK` (R5): the input of one S-box. -/
abbrev Chunk := BitVec 6

/-- `W_SOUT` (R5): the output of one S-box. -/
abbrev Nibble := BitVec 4

/-- `N_ROUNDS` (R5). -/
abbrev nRounds : Nat := 16

/-- The 16 entries of the subkey store KS (R16); entry `n - 1` holds round key `n` (R14). -/
abbrev KeyStore := Vector SubKey nRounds

/-- The command word `op ‖ idx ‖ data` (R60). -/
abbrev CmdWord := BitVec 71

/-- A byte of the written form of a command word (R67). -/
abbrev Byte := BitVec 8

end Sys2Proof
end

