-- ==== Sys2Proof/Syntax.lean ====
section
/-! DEFINITION. The commands of the core (R61, R65): one constructor per row of spec/opcode_table.json. Every constructor keeps
all the fields of its command word, the ignored ones too (R62, R63; log 11), so that no bit of a word is lost in decoding. -/

namespace Sys2Proof

/-- A decoded command. -/
inductive Instr where
  /-- KEYGEN, `op = 000` (R75): `key` is the master key; `idx` is ignored (R62). -/
  | keygen (idx : BitVec 4) (key : Block)
  /-- ENCRYPT, `op = 001` (R90): `block` is the plaintext; `idx` is ignored (R62). -/
  | encrypt (idx : BitVec 4) (block : Block)
  /-- DECRYPT, `op = 010` (R91): `block` is the ciphertext; `idx` is ignored (R62). -/
  | decrypt (idx : BitVec 4) (block : Block)
  /-- RDKEY, `op = 011` (R76): `idx` selects the entry of KS; `data` is ignored (R63). -/
  | rdkey (idx : BitVec 4) (data : Block)
  /-- ILLEGAL, `op = 1xx` (R94): `op` is the reserved op value; `idx` and `data` are ignored (R62, R63). -/
  | illegal (op : BitVec 3) (idx : BitVec 4) (data : Block)
deriving DecidableEq, Repr

end Sys2Proof
end

