-- ==== Sys2Proof/WellFormed.lean ====
section
/-! DEFINITION. Which terms of `Instr` are commands: every field has exactly its width by its type (R64), so the one check left
is that ILLEGAL holds a reserved op value (R61, R65). -/

namespace Sys2Proof

/-- R65: a reserved op value is one whose bit 2 is 1 (`100`, `101`, `110`, `111`). -/
def reservedOp (op : BitVec 3) : Bool := op.msb

/-- A command that some command word stands for. -/
def Instr.wf : Instr → Bool
  | .keygen _ _ => true
  | .encrypt _ _ => true
  | .decrypt _ _ => true
  | .rdkey _ _ => true
  | .illegal op _ _ => reservedOp op

end Sys2Proof
end

