-- ==== Sys2Proof/Decode.lean ====
section
/-! DEFINITION. Command words (R60, R61, R65), the decoder, the encoder, and the written form of R67 as bytes.

The core is handed one 71-bit word at its ports and stores no program, so `decodeWord` is the decoder. `decodeBytes` reads the
written form of R67 (the word zero-extended to 72 bits, first hex digit first) as nine bytes and rejects by name whatever is
no such form (R64: reject rather than guess, pad or truncate; log 12). -/

namespace Sys2Proof

/-- `op ‖ idx ‖ data` (R60). -/
def packWord (op : BitVec 3) (idx : BitVec 4) (data : Block) : CmdWord := op ++ idx ++ data

/-- Word bits 70:68 (R60). -/
def opField (w : CmdWord) : BitVec 3 := w.extractLsb' 68 3

/-- Word bits 67:64 (R60). -/
def idxField (w : CmdWord) : BitVec 4 := w.extractLsb' 64 4

/-- Word bits 63:0 (R60). -/
def dataField (w : CmdWord) : Block := w.extractLsb' 0 64

/-- The opcode map of R61 on the three fields of a command word; an `op` of no row of it is reserved. -/
def decodeFields (op : BitVec 3) (idx : BitVec 4) (data : Block) : Instr :=
  if op = 0b000#3 then .keygen idx data
  else if op = 0b001#3 then .encrypt idx data
  else if op = 0b010#3 then .decrypt idx data
  else if op = 0b011#3 then .rdkey idx data
  else .illegal op idx data

/-- `Decode` of R65, total on the 2^71 command words. -/
def decodeWord (w : CmdWord) : Instr := decodeFields (opField w) (idxField w) (dataField w)

/-- Why a written form is no command word. -/
inductive DecodeError where
  /-- It has not exactly nine bytes (R64, R66, R67). -/
  | wrongLength
  /-- Its first hex digit is not `0` to `7`: bit 71 is not the zero that R67 puts there. -/
  | notACommandWord
deriving DecidableEq, Repr

/-- A number as a command word, if it has no bit above bit 70. -/
def wordOfNat (n : Nat) : Option CmdWord := if n < 2 ^ 71 then some (BitVec.ofNat 71 n) else none

/-- Bytes as one number, the first byte the most significant (R67). -/
def natOfBytes (bytes : List Byte) : Nat := bytes.foldl (fun acc b => acc * 256 + b.toNat) 0

/-- The written form of R67 as bytes, decoded or rejected by name. -/
def decodeBytes (bytes : List Byte) : Except DecodeError Instr :=
  if bytes.length = 9 then
    match wordOfNat (natOfBytes bytes) with
    | some w => .ok (decodeWord w)
    | none => .error .notACommandWord
  else .error .wrongLength

/-- The host's question: the command whose word has the bits of `w`, bit 0 the least significant, every bit from bit `nbits` on
zero. -/
def decodeTableWord (nbits w : Nat) : Option Instr := (wordOfNat (w % 2 ^ nbits)).map decodeWord

/-! The encoder, from the same table of R60 and R61. -/

/-- The `op` of R61 of a command. -/
def Instr.op : Instr → BitVec 3
  | .keygen _ _ => 0b000#3
  | .encrypt _ _ => 0b001#3
  | .decrypt _ _ => 0b010#3
  | .rdkey _ _ => 0b011#3
  | .illegal op _ _ => op

/-- The `idx` field of a command (R62). -/
def Instr.idx : Instr → BitVec 4
  | .keygen idx _ => idx
  | .encrypt idx _ => idx
  | .decrypt idx _ => idx
  | .rdkey idx _ => idx
  | .illegal _ idx _ => idx

/-- The `data` field of a command (R63). -/
def Instr.data : Instr → Block
  | .keygen _ key => key
  | .encrypt _ block => block
  | .decrypt _ block => block
  | .rdkey _ data => data
  | .illegal _ _ data => data

/-- The command word of a command (R60, R61). -/
def encodeWord (i : Instr) : CmdWord := packWord i.op i.idx i.data

/-- The word of a command; a term that is no command has none. -/
def encode (i : Instr) : Option CmdWord := if i.wf then some (encodeWord i) else none

/-- Byte `k` (0 is the first) of the written form of R67. -/
def writtenByte (w : CmdWord) (k : Nat) : Byte := (w.setWidth 72).extractLsb' (64 - 8 * k) 8

/-- The written form of R67 as nine bytes. -/
def encodeBytes (i : Instr) : List Byte := (List.range 9).map (writtenByte (encodeWord i))

end Sys2Proof
end

