-- ==== Sys2Proof/Config.lean ====
section
/-! DEFINITION. What an implementation of the core fixes (the latencies, R6 and R115) and the values the spec leaves
unspecified (R108, R25). Every constant here is opaque: no proof can learn its value. The table ROMs, which the spec fixes,
stand in Sys2Proof/Machine/Roms.lean. -/

namespace Sys2Proof.Config

/-- `LAT_KEYGEN - 1` (R115). -/
opaque latKeygenLessOne : Nat

/-- `LAT_XFORM - 1` (R115). -/
opaque latXformLessOne : Nat

/-- `LAT_RDKEY - 1` (R115). -/
opaque latRdkeyLessOne : Nat

/-- `LAT_ERR - 1` (R115). -/
opaque latErrLessOne : Nat

/-- `LAT_KEYGEN`, an OPEN parameter that is at least 1 (R6, R115; log 7). -/
def latKeygen : Nat := latKeygenLessOne + 1

/-- `LAT_XFORM`, for ENCRYPT and DECRYPT alike (R6, R115; log 7). -/
def latXform : Nat := latXformLessOne + 1

/-- `LAT_RDKEY`, for RDKEY with status OK (R6, R115; log 7). -/
def latRdkey : Nat := latRdkeyLessOne + 1

/-- `LAT_ERR`, for every error response (R6, R115; log 7). -/
def latErr : Nat := latErrLessOne + 1

/-! The free values (log 5). The first argument is the draw: a counter of State that moves on at every draw. -/

/-- An unspecified entry of KS (second argument) after a reset edge (R108, U1). -/
opaque freeKS : Nat → Nat → SubKey

/-- An unspecified value of C (R25, R108, U2). -/
opaque freeC : Nat → HalfKey

/-- An unspecified value of D (R25, R108, U2). -/
opaque freeD : Nat → HalfKey

/-- An unspecified value of L (R25, R108, U2). -/
opaque freeL : Nat → Half

/-- An unspecified value of R (R25, R108, U2). -/
opaque freeR : Nat → Half

/-- An unspecified value of RC when no command is in flight (R25, R108, U2): any five bits. -/
opaque freeRC : Nat → BitVec 5

/-- How many rounds the command in flight has run, as an implementation chooses (R92); `roundsSoFar` keeps it in R25's range. -/
opaque freeRounds : Nat → Nat

/-- An unspecified value of CMD_OP (R25, R108, U2). -/
opaque freeCmdOp : Nat → BitVec 3

/-- An unspecified value of CMD_IDX (R25, R108, U2). -/
opaque freeCmdIdx : Nat → BitVec 4

/-- An unspecified value of CMD_DATA (R25, R108, U2). -/
opaque freeCmdData : Nat → Block

end Sys2Proof.Config
end

