-- ==== Sys2Proof/Machine/State.lean ====
section
/-! DEFINITION. The state of one core: the architectural registers (R15 to R19), the sequencing signals (R20, R21), the working
registers (R25), and four fields of the model's own for the command in flight, the host and the free values. The table ROMs are
constants (R15, R51) and stand in Roms.lean; the core has no memory and no program counter (R23, R31). -/

namespace Sys2Proof.Machine

/-- What the host drives on the input pins, as sampled at one rising edge of `clk` (R60, R107, R112). -/
structure Pins where
  /-- `rst` (R107). -/
  rst : Bool
  /-- `cmd_valid` (R112). -/
  cmdValid : Bool
  /-- `cmd_op[2:0]` (R60). -/
  cmdOp : BitVec 3
  /-- `cmd_idx[3:0]` (R60). -/
  cmdIdx : BitVec 4
  /-- `cmd_data[63:0]` (R60). -/
  cmdData : Block
deriving DecidableEq, Repr

/-- What `cmd_valid` was at the last edge, and what the host owes for it (R112): "from the cycle in which it raises `cmd_valid` until
acceptance" it holds the word, and "after acceptance the host may change the inputs freely" (log 21). -/
inductive Offer where
  /-- `cmd_valid` was 0: no word is raised. -/
  | nothing
  /-- The host has raised `cmd_valid`, and the core has not accepted: the word is to be held. -/
  | standing (w : CmdWord)
  /-- `cmd_valid` is 1 since an acceptance without having been raised anew: the inputs are free. -/
  | leftHigh
deriving DecidableEq, Repr

/-- The state of one core at a moment between two rising edges of `clk`. -/
structure State where
  /-- KV, the key-valid flag (R17). -/
  kv : Bool
  /-- KS, the subkey store (R16). -/
  ks : KeyStore
  /-- RSP_STATUS, shown on `rsp_status` (R18). -/
  rspStatus : BitVec 2
  /-- RSP_DATA, shown on `rsp_data` (R19). -/
  rspData : Block
  /-- BUSY (R20). -/
  busy : Bool
  /-- RSP_VALID, shown on `rsp_valid` (R21). -/
  rspValid : Bool
  /-- CMD_OP, captured at acceptance (R25, R112). -/
  cmdOp : BitVec 3
  /-- CMD_IDX, captured at acceptance (R25, R112). -/
  cmdIdx : BitVec 4
  /-- CMD_DATA, captured at acceptance (R25, R112). -/
  cmdData : Block
  /-- C, the left half of the rotation state (R25, R70). -/
  workC : HalfKey
  /-- D, the right half of the rotation state (R25, R70). -/
  workD : HalfKey
  /-- L, the left half of the Half-Block Pair (R25, R77). -/
  workL : Half
  /-- R, the right half of the Half-Block Pair (R25, R77). -/
  workR : Half
  /-- RC, the round counter (R25). -/
  workRC : BitVec 5
  /-- The model's own: how many edges the command in flight still takes, the last one its completion (R113). -/
  latLeft : Nat
  /-- The model's own: whether the host has a word raised that the core has not accepted and that it must hold (R112). -/
  offer : Offer
  /-- The model's own: what the host drives at the coming edges, the next one first; after the last, quiet pins (log 2). -/
  pins : List Pins
  /-- The model's own: how many free values have been drawn (log 5). -/
  draws : Nat
deriving DecidableEq, Repr

/-- The core has no trap and no command that stops it (R99, R120: `Exec` is total), so no fault is raised by anything: there is no
constructor (log 19). -/
inductive Fault
deriving DecidableEq, Repr

/-- Why a step has no meaning in this model. -/
inductive Refusal where
  /-- Raised by an arm of `exec` for a command that has no meaning yet. Safe: the model stops. No arm raises it. -/
  | notModelled (mnemonic : String)
  /-- Raised by a clock edge at which the host has changed or dropped a command it had raised and the core had not accepted:
  R118, "The command then accepted is not defined by this spec", and U4, `refuse`. Unsafe as the spec says it: what is proved is
  proved of hosts that keep the duty (log 8). -/
  | hostBrokeDuty
deriving DecidableEq, Repr

/-- What a command or an edge answers. -/
abbrev Result := Host.Outcome State Fault Refusal

/-- Right after reset (R108): KV, BUSY, RSP_VALID, RSP_STATUS and RSP_DATA at the values the spec gives. The spec leaves KS
(log 3) and the working registers (log 4) unspecified: zero here, a DESIGN CHOICE. The model's own fields: log 18. -/
def State.reset : State where
  kv := false
  ks := Vector.replicate nRounds 0
  rspStatus := 0
  rspData := 0
  busy := false
  rspValid := false
  cmdOp := 0
  cmdIdx := 0
  cmdData := 0
  workC := 0
  workD := 0
  workL := 0
  workR := 0
  workRC := 0
  latLeft := 0
  offer := .nothing
  pins := []
  draws := 0

end Sys2Proof.Machine
end

