-- ==== Sys2Proof/Machine/Ops.lean ====
section
/-! DEFINITION. The shared operations on the registers: the architectural view, the free values, ending a command with a response
(`respond`, R12), failing a command (`raise`, R12, R96), and the action of a reset edge (R108).

`raise` is this core's way of taking an exception: it has no trap, saves no state, changes no mode and redirects nothing (R99),
so there is no return from one either (R100). -/

namespace Sys2Proof.Machine

/-- The architectural state σ (R15). -/
structure Arch where
  kv : Bool
  ks : KeyStore
  rspStatus : BitVec 2
  rspData : Block
deriving DecidableEq, Repr

/-- The architectural part of a state (R15). -/
def State.arch (s : State) : Arch := { kv := s.kv, ks := s.ks, rspStatus := s.rspStatus, rspData := s.rspData }

/-! Status codes (R93). The code `11` is reserved and never produced. -/

/-- `00` OK. -/
def statusOk : BitVec 2 := 0b00#2
/-- `01` ILLEGAL_OP. -/
def statusIllegalOp : BitVec 2 := 0b01#2
/-- `10` NO_KEY. -/
def statusNoKey : BitVec 2 := 0b10#2

/-- The working registers while a command is in flight: an implementation steps them as it likes (R92), so they hold free values,
RC one from 0 to 16 (R25; log 6). -/
def State.runWorking (s : State) : State :=
  { s with
    workC := Config.freeC s.draws
    workD := Config.freeD s.draws
    workL := Config.freeL s.draws
    workR := Config.freeR s.draws
    workRC := BitVec.ofNat 5 (Config.freeRounds s.draws % 17)
    draws := s.draws + 1 }

/-- The working registers when a command has completed, and after a reset: all unspecified (R25, R108; log 6). -/
def State.forgetWorking (s : State) : State :=
  { s with
    cmdOp := Config.freeCmdOp s.draws
    cmdIdx := Config.freeCmdIdx s.draws
    cmdData := Config.freeCmdData s.draws
    workC := Config.freeC s.draws
    workD := Config.freeD s.draws
    workL := Config.freeL s.draws
    workR := Config.freeR s.draws
    workRC := Config.freeRC s.draws
    draws := s.draws + 1 }

/-- The subkey store after a reset: "may keep old contents or take any value" (R108, U1; log 5). -/
def freeStore (draw : Nat) : KeyStore := Vector.ofFn fun i => Config.freeKS draw i.val

/-- The response registers (R18, R19). -/
def State.setResponse (s : State) (status : BitVec 2) (data : Block) : State :=
  { s with rspStatus := status, rspData := data }

/-- The completion signals (R113): RSP_VALID rises, BUSY falls, nothing is left of the command in flight. -/
def State.signalCompletion (s : State) : State := { s with rspValid := true, busy := false, latLeft := 0 }

/-- The state in which a command ends with a response (R12, R113). -/
def State.answered (s : State) (status : BitVec 2) (data : Block) : State :=
  ((s.setResponse status data).signalCompletion).forgetWorking

/-- `respond(status, data)` (R12): end the command, write the response, signal completion. -/
def respond (status : BitVec 2) (data : Block) (s : State) : Result := .next (s.answered status data)

/-- `raise <Error>()` (R12, R96): the error's code with data 0 and no other change of KV or KS. -/
def raise (code : BitVec 2) (s : State) : Result := respond code 0 s

/-- The action of a reset edge (R108). A command in flight is aborted with no response (R109). -/
def State.resetRegisters (s : State) : State :=
  { s.forgetWorking with
    kv := false
    ks := freeStore s.draws
    busy := false
    rspValid := false
    rspStatus := statusOk
    rspData := 0
    latLeft := 0 }

end Sys2Proof.Machine
end

