-- ==== Sys2Proof/Machine/Flags.lean ====
section
/-! DEFINITION. KV, the core's only flag (R17, R24): KEYGEN sets it, reset clears it, ENCRYPT, DECRYPT and RDKEY check it. -/

namespace Sys2Proof.Machine

/-- `KS[0..15] <- ks` and `KV <- 1`, in one step (R75, R54). -/
def State.loadKeys (s : State) (ks : KeyStore) : State := { s with ks := ks, kv := true }

/-- `if KV = 0: raise NoKey()` (R95), else the rest of the command. -/
def requireKey (rest : State → Result) (s : State) : Result := if s.kv then rest s else raise statusNoKey s

end Sys2Proof.Machine
end

