-- ==== Sys2Proof/Machine/Bits.lean ====
section
/-! DEFINITION. The bit-level primitives of 00_scope.md: positions (R7), Permute (R9) and ROTL28 (R10). Exclusive-or (R11),
slices and concatenation (R8) are `^^^`, `extractLsb'` and `++` of BitVec. -/

namespace Sys2Proof.Machine

/-- `B⟨p⟩` (R7): position `p` of a Bit Block, position 1 the most significant bit. -/
def pos {n : Nat} (b : BitVec n) (p : Nat) : Bool := b.getMsbD (p - 1)

/-- `Permute(T, x)` (R9), for a table of `m` entries: output position `k` is input position `T[k]`. -/
def permute {n : Nat} (m : Nat) (table : List Nat) (x : BitVec n) : BitVec m :=
  (BitVec.ofBoolListBE (table.map (pos x))).setWidth m

/-- `ROTL28(v, s)` (R10), for `s` in 1 to 27, in the vector form of the rule. -/
def rotl28 (v : HalfKey) (s : Nat) : HalfKey := (v <<< s) ||| (v >>> (28 - s))

end Sys2Proof.Machine
end

