-- ==== Sys2Proof/Machine/Roms.lean ====
section
/-! DEFINITION. The table ROMs (R32), as the spec gives their contents (R36 to R50), and how they are read (R33, R34). They are
constants: no command and no reset writes them (R51). They stand in this folder so that a corrected table (log 10) changes one
definition. -/

namespace Sys2Proof.Machine.Rom

/-- `SHIFT` (R36): the rotation of round `i + 1` is entry `i`. -/
def shift : List Nat := [1, 1, 2, 2, 2, 2, 2, 2, 1, 2, 2, 2, 2, 2, 2, 1]

/-- `PC1` (R37), Permuted Choice 1: 56 entries in 1 to 64. Entry 1 first (R33). -/
def pc1 : List Nat :=
  [57, 49, 41, 33, 25, 17, 9,
   1, 58, 50, 42, 34, 26, 18,
   10, 2, 59, 51, 43, 35, 27,
   19, 11, 3, 60, 52, 44, 36,
   63, 55, 47, 39, 31, 23, 15,
   7, 62, 54, 46, 38, 30, 22,
   14, 6, 61, 53, 45, 37, 29,
   21, 13, 5, 28, 20, 12, 4]

/-- `PC2` (R38), Permuted Choice 2: 48 entries in 1 to 56. Entry 1 first (R33). -/
def pc2 : List Nat :=
  [14, 17, 11, 24, 1, 5,
   3, 28, 15, 6, 21, 10,
   23, 19, 12, 4, 26, 8,
   16, 7, 27, 20, 13, 2,
   41, 52, 31, 37, 47, 55,
   30, 40, 51, 45, 33, 48,
   44, 49, 39, 56, 34, 53,
   46, 42, 50, 36, 29, 32]

/-- `IP` (R39), the Initial Permutation. Entry 1 first (R33). -/
def ip : List Nat :=
  [58, 50, 42, 34, 26, 18, 10, 2,
   60, 52, 44, 36, 28, 20, 12, 4,
   62, 54, 46, 38, 30, 22, 14, 6,
   64, 56, 48, 40, 32, 24, 16, 8,
   57, 49, 41, 33, 25, 17, 9, 1,
   59, 51, 43, 35, 27, 19, 11, 3,
   61, 53, 45, 37, 29, 21, 13, 5,
   63, 55, 47, 39, 31, 23, 15, 7]

/-- `IPINV` (R40), the Inverse-Initial-Permutation. Entry 1 first (R33). -/
def ipinv : List Nat :=
  [40, 8, 48, 16, 56, 24, 64, 32,
   39, 7, 47, 15, 55, 23, 63, 31,
   38, 6, 46, 14, 54, 22, 62, 30,
   37, 5, 45, 13, 53, 21, 61, 29,
   36, 4, 44, 12, 52, 20, 60, 28,
   35, 3, 43, 11, 51, 19, 59, 27,
   34, 2, 42, 10, 50, 18, 58, 26,
   33, 1, 41, 9, 49, 17, 57, 25]

/-- `E` (R41), the Expansion: 48 entries in 1 to 32. Entry 1 first (R33). -/
def expansion : List Nat :=
  [32, 1, 2, 3, 4, 5,
   4, 5, 6, 7, 8, 9,
   8, 9, 10, 11, 12, 13,
   12, 13, 14, 15, 16, 17,
   16, 17, 18, 19, 20, 21,
   20, 21, 22, 23, 24, 25,
   24, 25, 26, 27, 28, 29,
   28, 29, 30, 31, 32, 1]

/-- `P` (R42), the permutation of the substitution output. Entry 1 first (R33). -/
def pbox : List Nat :=
  [16, 7, 20, 21,
   29, 12, 28, 17,
   1, 15, 23, 26,
   5, 18, 31, 10,
   2, 8, 24, 14,
   32, 27, 3, 9,
   19, 13, 30, 6,
   22, 11, 4, 25]

/-- `S1` (R43): rows 0 to 3, each columns 0 to 15. -/
def s1 : List (List Nat) :=
  [[14, 4, 13, 1, 2, 15, 11, 8, 3, 10, 6, 12, 5, 9, 0, 7],
   [0, 15, 7, 4, 14, 2, 13, 1, 10, 6, 12, 11, 9, 5, 3, 8],
   [4, 1, 14, 8, 13, 6, 2, 11, 15, 12, 9, 7, 3, 10, 5, 0],
   [15, 12, 8, 2, 4, 9, 1, 7, 5, 11, 3, 14, 10, 0, 6, 13]]

/-- `S2` (R44): rows 0 to 3, each columns 0 to 15. -/
def s2 : List (List Nat) :=
  [[15, 1, 8, 14, 6, 11, 3, 4, 9, 7, 2, 13, 12, 0, 5, 10],
   [3, 13, 4, 7, 15, 2, 8, 14, 12, 0, 1, 10, 6, 9, 11, 5],
   [0, 14, 7, 11, 10, 4, 13, 1, 5, 8, 12, 6, 9, 3, 2, 15],
   [13, 8, 10, 1, 3, 15, 4, 2, 11, 6, 7, 12, 0, 5, 14, 9]]

/-- `S3` (R45): rows 0 to 3, each columns 0 to 15. -/
def s3 : List (List Nat) :=
  [[10, 0, 9, 14, 6, 3, 15, 5, 1, 13, 12, 7, 11, 4, 2, 8],
   [13, 7, 0, 9, 3, 4, 6, 10, 2, 8, 5, 14, 12, 11, 15, 1],
   [13, 6, 4, 9, 8, 15, 3, 0, 11, 1, 2, 12, 5, 10, 14, 7],
   [1, 10, 13, 0, 6, 9, 8, 7, 4, 15, 14, 3, 11, 5, 2, 12]]

/-- `S4` (R46): rows 0 to 3, each columns 0 to 15. -/
def s4 : List (List Nat) :=
  [[7, 13, 14, 3, 0, 6, 9, 10, 1, 2, 8, 5, 11, 12, 4, 15],
   [13, 8, 11, 5, 6, 15, 0, 3, 4, 7, 2, 12, 1, 10, 14, 9],
   [10, 6, 9, 0, 12, 11, 7, 13, 15, 1, 3, 14, 5, 2, 8, 4],
   [3, 15, 0, 6, 10, 1, 13, 8, 9, 4, 5, 11, 12, 7, 2, 14]]

/-- `S5` (R47): rows 0 to 3, each columns 0 to 15. -/
def s5 : List (List Nat) :=
  [[2, 12, 4, 1, 7, 10, 11, 6, 8, 5, 3, 15, 13, 0, 14, 9],
   [14, 11, 2, 12, 4, 7, 13, 1, 5, 0, 15, 10, 3, 9, 8, 6],
   [4, 2, 1, 11, 10, 13, 7, 8, 15, 9, 12, 5, 6, 3, 0, 14],
   [11, 8, 12, 7, 1, 14, 2, 13, 6, 15, 0, 9, 10, 4, 5, 3]]

/-- `S6` (R48): rows 0 to 3, each columns 0 to 15. -/
def s6 : List (List Nat) :=
  [[12, 1, 10, 15, 9, 2, 6, 8, 0, 13, 3, 4, 14, 7, 5, 11],
   [10, 15, 4, 2, 7, 12, 9, 5, 6, 1, 13, 14, 0, 11, 3, 8],
   [9, 14, 15, 5, 2, 8, 12, 3, 7, 0, 4, 10, 1, 13, 11, 6],
   [4, 3, 2, 12, 9, 5, 15, 10, 11, 14, 1, 7, 6, 0, 8, 13]]

/-- `S7` (R49): rows 0 to 3, each columns 0 to 15. -/
def s7 : List (List Nat) :=
  [[4, 11, 2, 14, 15, 0, 8, 13, 3, 12, 9, 7, 5, 10, 6, 1],
   [13, 0, 11, 7, 4, 9, 1, 10, 14, 3, 5, 12, 2, 15, 8, 6],
   [1, 4, 11, 13, 12, 3, 7, 14, 10, 15, 6, 8, 0, 5, 9, 2],
   [6, 11, 13, 8, 1, 4, 10, 7, 9, 5, 0, 15, 14, 2, 3, 12]]

/-- `S8` (R50): rows 0 to 3, each columns 0 to 15. -/
def s8 : List (List Nat) :=
  [[13, 2, 8, 4, 6, 15, 11, 1, 10, 9, 3, 14, 5, 0, 12, 7],
   [1, 15, 13, 8, 10, 3, 7, 4, 12, 5, 6, 11, 0, 14, 9, 2],
   [7, 11, 4, 1, 9, 12, 14, 2, 0, 6, 10, 13, 15, 3, 5, 8],
   [2, 1, 14, 7, 4, 10, 8, 13, 15, 12, 9, 0, 3, 5, 6, 11]]

/-- The S-box ROMs `S1` to `S8`, in order (R32). -/
def sBoxes : List (List (List Nat)) := [s1, s2, s3, s4, s5, s6, s7, s8]

/-- `SHIFT[i]` for `i` in 0 to 15 (R36). -/
def shiftAt (i : Nat) : Nat := shift.getD i 0

/-- `RomRead(T, k)` for `k` in 1 to |T| (R33). -/
def romRead (table : List Nat) (k : Nat) : Nat := table.getD (k - 1) 0

/-- The entry of S-box `Sj` at a row and a column, as a number (R34): `j` in 1 to 8, `row` in 0 to 3, `col` in 0 to 15. -/
def sEntry (j row col : Nat) : Nat := ((sBoxes.getD (j - 1) []).getD row []).getD col 0

/-- `SRom(j, row, col)` (R34): the 4-bit value, its bit 3 at position 1. -/
def sRom (j row col : Nat) : Nibble := BitVec.ofNat 4 (sEntry j row col)

/-! The design-time check of R35. -/

/-- A permutation ROM has `outLength` entries, each in `[1, inLength]` (R32, R35). -/
def permOk (outLength inLength : Nat) (table : List Nat) : Bool :=
  table.length == outLength && table.all fun k => decide (1 ≤ k ∧ k ≤ inLength)

/-- An S-box ROM has 4 rows of 16 columns, each entry in `[0, 15]` (R32, R35). -/
def sBoxOk (box : List (List Nat)) : Bool :=
  box.length == 4 && box.all fun row => row.length == 16 && row.all fun v => decide (v ≤ 15)

/-- `SHIFT` has 16 entries, each 1 or 2 (R35). -/
def shiftOk (schedule : List Nat) : Bool :=
  schedule.length == 16 && schedule.all fun k => decide (k = 1 ∨ k = 2)

/-- R35, whole: the check a configuration of the ROMs must pass. -/
def wellFormed : Bool :=
  shiftOk shift && permOk 56 64 pc1 && permOk 48 56 pc2 && permOk 64 64 ip && permOk 64 64 ipinv && permOk 48 32 expansion
    && permOk 32 32 pbox && sBoxes.length == 8 && sBoxes.all sBoxOk

end Sys2Proof.Machine.Rom
end

