-- ==== Sys2Proof/Machine/Transform.lean ====
section
/-! DEFINITION. The datapath of the Block Transform Engine (R77 to R88), as functions of the block, the subkey store and the
direction. -/

namespace Sys2Proof.Machine

/-- The Half-Block Pair (R25, R77). -/
structure HalfPair where
  l : Half
  r : Half
deriving DecidableEq, Repr

/-- `X0 = Permute(IP, B)` split into `L0` and `R0` (R77). -/
def initialHalves (block : Block) : HalfPair :=
  let x : Block := permute 64 Rom.ip block
  { l := x.extractLsb' 32 32, r := x.extractLsb' 0 32 }

/-- `Ex(R)` (R78). -/
def expand (r : Half) : SubKey := permute 48 Rom.expansion r

/-- `Ex(R) ⊕ K` (R79). -/
def mixKey (r : Half) (k : SubKey) : SubKey := expand r ^^^ k

/-- Chunk `j` (1 to 8) of the 48-bit S-box input (R13). -/
def chunk (j : Nat) (x : SubKey) : Chunk := x.extractLsb' (42 - 6 * (j - 1)) 6

/-- "bit b" (0 to 5) of a chunk, bit 0 the first (R13). -/
def chunkBit (c : Chunk) (b : Nat) : Nat := (c.getMsbD b).toNat

/-- The row of a chunk (R80): bit 0 high, bit 5 low. -/
def sRow (c : Chunk) : Nat := 2 * chunkBit c 0 + chunkBit c 5

/-- The column of a chunk (R80): bits 1 to 4, bit 1 highest. -/
def sCol (c : Chunk) : Nat := 8 * chunkBit c 1 + 4 * chunkBit c 2 + 2 * chunkBit c 3 + chunkBit c 4

/-- Lane `j` (1 to 8) of the S-box array (R81). -/
def sLane (j : Nat) (x : SubKey) : Nibble := Rom.sRom j (sRow (chunk j x)) (sCol (chunk j x))

/-- `Sarr(Xm)` (R81): eight independent lanes, lane 1 at positions 1 to 4. -/
def sArray (x : SubKey) : Half :=
  sLane 1 x ++ sLane 2 x ++ sLane 3 x ++ sLane 4 x ++ sLane 5 x ++ sLane 6 x ++ sLane 7 x ++ sLane 8 x

/-- `Pp(y)` (R82). -/
def permuteP (y : Half) : Half := permute 32 Rom.pbox y

/-- The round function `f(R, K)` (R83). -/
def roundFunction (r : Half) (k : SubKey) : Half := permuteP (sArray (mixKey r k))

/-- The Feistel round and half-block swap (R84); both right-hand sides read the halves from before the round. -/
def feistelRound (h : HalfPair) (k : SubKey) : HalfPair := { l := h.r, r := h.l ^^^ roundFunction h.r k }

/-- Entry `i` of the subkey store, for `i` in 0 to 15. -/
def storeAt (ks : KeyStore) (i : Nat) : SubKey := ks.getD i 0

/-- `K_i` (R85): the round key of round `i + 1`, read forward or in reverse order. -/
def selectKey (ks : KeyStore) (reverseKeys : Bool) (i : Nat) : SubKey :=
  if reverseKeys then storeAt ks (15 - i) else storeAt ks i

/-- `L(i)`, `R(i)` (R84, R88): the halves after `i` rounds from `h`. -/
def feistelHalves (ks : KeyStore) (reverseKeys : Bool) (h : HalfPair) : Nat → HalfPair
  | 0 => h
  | i + 1 => feistelRound (feistelHalves ks reverseKeys h i) (selectKey ks reverseKeys i)

/-- `R16 ‖ L16` (R86) through `IPINV` (R87). -/
def finalBlock (h : HalfPair) : Block := permute 64 Rom.ipinv (h.r ++ h.l)

/-- `Transform(B, KS, reverse_keys)` (R88). -/
def transform (block : Block) (ks : KeyStore) (reverseKeys : Bool) : Block :=
  finalBlock (feistelHalves ks reverseKeys (initialHalves block) nRounds)

end Sys2Proof.Machine
end

