-- ==== Sys2Proof/Machine/BlockCommands.lean ====
section
/-! DEFINITION. The commands of 41_block_transform.md: ENCRYPT (R90) and DECRYPT (R91). -/

namespace Sys2Proof.Machine

/-- ENCRYPT (R90). `idx` is ignored (R62). -/
def execEncrypt (_idx : BitVec 4) (block : Block) (s : State) : Result :=
  requireKey (fun t => respond statusOk (transform block t.ks false) t) s

/-- DECRYPT (R91). `idx` is ignored (R62). -/
def execDecrypt (_idx : BitVec 4) (block : Block) (s : State) : Result :=
  requireKey (fun t => respond statusOk (transform block t.ks true) t) s

end Sys2Proof.Machine
end

