-- ==== Sys2Proof/Machine/Operands.lean ====
section
/-! DEFINITION. The operand forms (R22, R62 to R64): every operand is a field of the command word, taken whole, or an entry of KS
that `idx` selects. -/

namespace Sys2Proof.Machine

/-- `KS[idx]` (R62): every value of the 4-bit field names an entry. -/
def keyOperand (ks : KeyStore) (idx : BitVec 4) : SubKey := ks.getD idx.toNat 0

/-- `zext_64` of a round key (R8, R19, R76). -/
def zext64 (k : SubKey) : Block := k.setWidth 64

/-- The 71-bit word on the command pins (R60). -/
def Pins.word (p : Pins) : CmdWord := packWord p.cmdOp p.cmdIdx p.cmdData

/-- The word captured in CMD_OP, CMD_IDX and CMD_DATA (R25, R112). -/
def State.cmdWord (s : State) : CmdWord := packWord s.cmdOp s.cmdIdx s.cmdData

end Sys2Proof.Machine
end

