-- ==== Sys2Proof/Machine/Schedule.lean ====
section
/-! DEFINITION. The datapath of the Key Schedule Generator (R70 to R73), as functions of the master key. -/

namespace Sys2Proof.Machine

/-- The two halves of the key-schedule rotation state (R25, R70). -/
structure KeyHalves where
  c : HalfKey
  d : HalfKey
deriving DecidableEq, Repr

/-- `C ‖ D` (R72). -/
def KeyHalves.join (h : KeyHalves) : KeyPair := h.c ++ h.d

/-- `C0`, `D0` (R70): Permuted Choice 1 and the split. -/
def keyStart (key : Block) : KeyHalves :=
  let cd : KeyPair := permute 56 Rom.pc1 key
  { c := cd.extractLsb' 28 28, d := cd.extractLsb' 0 28 }

/-- One rotation of both halves (R71). -/
def KeyHalves.rotate (h : KeyHalves) (s : Nat) : KeyHalves := { c := rotl28 h.c s, d := rotl28 h.d s }

/-- `C(n)`, `D(n)` (R71): the halves after `n` rounds. -/
def keyHalves (key : Block) : Nat → KeyHalves
  | 0 => keyStart key
  | i + 1 => (keyHalves key i).rotate (Rom.shiftAt i)

/-- `Permute(PC2, C ‖ D)` (R72): the subkey extraction. -/
def extractKey (h : KeyHalves) : SubKey := permute 48 Rom.pc2 h.join

/-- `RoundKey(Km, n)` for `n` in 1 to 16 (R72). -/
def roundKey (key : Block) (n : Nat) : SubKey := extractKey (keyHalves key n)

/-- `KeySchedule(Km)` (R73): entry `i` is round key `i + 1`. -/
def keySchedule (key : Block) : KeyStore := Vector.ofFn fun i => roundKey key (i.val + 1)

end Sys2Proof.Machine
end

