-- ==== Sys2Proof/Machine/KeyCommands.lean ====
section
/-! DEFINITION. The commands of 40_key_schedule.md: KEYGEN (R75) and RDKEY (R76). -/

namespace Sys2Proof.Machine

/-- KEYGEN (R75). `idx` is ignored (R62). -/
def execKeygen (_idx : BitVec 4) (key : Block) (s : State) : Result := respond statusOk 0 (s.loadKeys (keySchedule key))

/-- RDKEY (R76). `data` is ignored (R63). -/
def execRdkey (idx : BitVec 4) (_data : Block) (s : State) : Result :=
  requireKey (fun t => respond statusOk (zext64 (keyOperand t.ks idx)) t) s

end Sys2Proof.Machine
end

