-- ==== Sys2Proof/Machine/ReservedCommands.lean ====
section
/-! DEFINITION. The reserved op values of 60_exceptions.md (R94). -/

namespace Sys2Proof.Machine

/-- ILLEGAL (R94): rejected before KV is looked at (R97). `idx` and `data` are ignored (R62, R63). -/
def execIllegal (_op : BitVec 3) (_idx : BitVec 4) (_data : Block) (s : State) : Result := raise statusIllegalOp s

end Sys2Proof.Machine
end

