-- ==== Sys2Proof/Machine/Dispatch.lean ====
section
/-! DEFINITION. One arm per command (R120). -/

namespace Sys2Proof.Machine

def exec (i : Instr) (s : State) : Host.Outcome State Fault Refusal :=
  match i with
  | .keygen idx key => Sys2Proof.Machine.execKeygen idx key s
  | .encrypt idx block => Sys2Proof.Machine.execEncrypt idx block s
  | .decrypt idx block => Sys2Proof.Machine.execDecrypt idx block s
  | .rdkey idx data => Sys2Proof.Machine.execRdkey idx data s
  | .illegal op idx data => Sys2Proof.Machine.execIllegal op idx data s

end Sys2Proof.Machine
end

