-- ==== Sys2Proof/Machine/Handshake.lean ====
section
/-! DEFINITION. The command protocol of 70_reset_and_hazards.md, edge by edge: what the host drives, acceptance (R112), latency
(R113, R115), the edges in between, and the host duty (R112, R118). The completion edge itself runs the command and stands in
Clock.lean. -/

namespace Sys2Proof.Machine

/-- Pins at which the host asks for nothing. -/
def Pins.quiet : Pins := { rst := false, cmdValid := false, cmdOp := 0, cmdIdx := 0, cmdData := 0 }

/-- Pins at which the host raises a command word. -/
def Pins.raising (w : CmdWord) : Pins :=
  { rst := false, cmdValid := true, cmdOp := opField w, cmdIdx := idxField w, cmdData := dataField w }

/-- Pins at which the host asserts reset and raises no command. -/
def Pins.resetting : Pins := { Pins.quiet with rst := true }

/-- The word the pins show with `cmd_valid = 1`, if they do. -/
def Pins.raised (p : Pins) : Option CmdWord := if p.cmdValid then some p.word else none

/-- The sample of the next rising edge; when the host's list is at its end the pins are quiet (log 2). -/
def State.nextPins (s : State) : Pins := s.pins.headD Pins.quiet

/-- The state with that sample taken off the host's list. -/
def State.dropPins (s : State) : State := { s with pins := s.pins.tail }

/-- The output `cmd_ready` (R20): `¬BUSY ∧ ¬rst`. -/
def cmdReady (s : State) (p : Pins) : Bool := !s.busy && !p.rst

/-- R112: accepted at an edge at which `rst = 0`, `cmd_valid = 1` and `cmd_ready = 1`. -/
def accepts (s : State) (p : Pins) : Bool := p.cmdValid && cmdReady s p

/-- R112: pins with which the host keeps its duty. A word that stands is to be shown again; else the inputs are free. -/
def Offer.allows (o : Offer) (p : Pins) : Bool :=
  match o with
  | .nothing => true
  | .standing w => decide (p.raised = some w)
  | .leftHigh => true

/-- What stands after an edge that accepts nothing (R112): `cmd_valid` 0 ends what stood; `cmd_valid` 1 after 0 raises a word, with
BUSY = 1 too; `cmd_valid` left at 1 since an acceptance is no raise (log 21). -/
def Offer.after (o : Offer) (p : Pins) : Offer :=
  if p.cmdValid then
    match o with
    | .nothing => .standing p.word
    | .standing _ => .standing p.word
    | .leftHigh => .leftHigh
  else .nothing

/-- R112, R118: a word the host raised earlier and the core has not accepted is no longer on the pins. A reset edge ends the duty
(log 9). -/
def breaksDuty (s : State) (p : Pins) : Bool := !p.rst && !s.offer.allows p

/-- R112 over samples at which nothing is accepted: no reset, and a word once raised (the first argument: what stands before the
first of them) stays raised. -/
def keepsDuty : Offer → List Pins → Bool
  | _, [] => true
  | o, p :: ps => !p.rst && o.allows p && keepsDuty (o.after p) ps

/-- What stands after samples at which nothing is accepted. -/
def Offer.afterAll (o : Offer) (ps : List Pins) : Offer := ps.foldl Offer.after o

/-- The latency of a command (R113, R115). Whether the response is an error is settled at acceptance: a reserved op by `op`
alone, NO_KEY by KV, which nothing changes while the command is in flight (log 14). -/
def latency (i : Instr) (kv : Bool) : Nat :=
  match i with
  | .keygen _ _ => Config.latKeygen
  | .encrypt _ _ => if kv then Config.latXform else Config.latErr
  | .decrypt _ _ => if kv then Config.latXform else Config.latErr
  | .rdkey _ _ => if kv then Config.latRdkey else Config.latErr
  | .illegal _ _ _ => Config.latErr

/-- CMD_OP, CMD_IDX and CMD_DATA from the pins (R112). -/
def State.capture (s : State) (p : Pins) : State :=
  { s with cmdOp := p.cmdOp, cmdIdx := p.cmdIdx, cmdData := p.cmdData }

/-- An edge at which a command is accepted (R112): captured, BUSY set, its latency begun, the duty discharged. From here on the inputs
are free until the host raises `cmd_valid` anew. -/
def State.acceptEdge (s : State) (p : Pins) : State :=
  { ((s.capture p).runWorking) with
    busy := true
    rspValid := false
    latLeft := latency (decodeWord p.word) s.kv
    offer := .leftHigh }

/-- An edge at which the command in flight neither completes nor is aborted (R113). -/
def State.waitEdge (s : State) (p : Pins) : State :=
  { s.runWorking with latLeft := s.latLeft - 1, rspValid := false, offer := s.offer.after p }

/-- An edge with no command in flight and none raised: all state is held (R106), but RSP_VALID, whose one cycle is over (R21). -/
def State.idleEdge (s : State) : State := { s with rspValid := false, offer := .nothing }

/-- A reset edge (R107, R108). A word raised at it has still to be held (R112). -/
def State.resetEdge (s : State) (p : Pins) : State := { s.resetRegisters with offer := s.offer.after p }

/-- Pins with which nothing changes in what stands: the host goes on as at the last edge. -/
def Pins.holding (o : Offer) : Pins :=
  match o with
  | .nothing => Pins.quiet
  | .standing w => Pins.raising w
  | .leftHigh => { Pins.quiet with cmdValid := true }

/-- The state with a command in flight that completes at the next edge, the host holding still at that edge (log 13). -/
def State.placeCommand (s : State) (w : CmdWord) : State :=
  { s with
    cmdOp := opField w
    cmdIdx := idxField w
    cmdData := dataField w
    busy := true
    rspValid := false
    latLeft := 1
    pins := Pins.holding s.offer :: s.pins }

/-- The output pins (R18, R19, R20, R21). -/
structure Outputs where
  cmdReady : Bool
  rspValid : Bool
  rspStatus : BitVec 2
  rspData : Block
deriving DecidableEq, Repr

/-- The output pins in a cycle in which the host drives `p`. -/
def State.outputs (s : State) (p : Pins) : Outputs :=
  { cmdReady := Sys2Proof.Machine.cmdReady s p, rspValid := s.rspValid, rspStatus := s.rspStatus, rspData := s.rspData }

end Sys2Proof.Machine
end

