-- ==== Sys2Proof/Machine/Clock.lean ====
section
/-! DEFINITION. One rising edge of `clk` (70_reset_and_hazards.md), and the transaction-level step `Exec(σ, w)` of R120 that its
completion edge performs. -/

namespace Sys2Proof.Machine

/-- `Exec(σ, w)` (R120): the step for a command word. -/
def execWord (w : CmdWord) (s : State) : Result := exec (decodeWord w) s

/-- The completion edge (R113): the captured command takes effect, whole and at once. A word the host has raised by this
edge it has still to hold (R112): BUSY is 1, so the core does not accept it here. -/
def completeEdge (p : Pins) (s : State) : Result := execWord s.cmdWord { s with offer := s.offer.after p }

/-- One rising edge at which the host drives `p`. -/
def clockEdge (p : Pins) (s : State) : Result :=
  if p.rst then .next (s.resetEdge p)
  else if breaksDuty s p then .refused .hostBrokeDuty
  else if s.busy then
    if s.latLeft ≤ 1 then completeEdge p s else .next (s.waitEdge p)
  else if accepts s p then .next (s.acceptEdge p)
  else .next s.idleEdge

end Sys2Proof.Machine
end

