-- ==== Sys2Proof/Machine/Step.lean ====
section
/-! DEFINITION. The step: one rising edge of `clk`, at the pins the host drives next. The core fetches nothing (R23): a command
comes over the handshake, and `State.withFetchWord` puts one in flight, at its completion edge (log 13). -/

namespace Sys2Proof.Machine

/-- One rising edge of `clk`. -/
def step (s : State) : Host.Outcome State Fault Refusal := clockEdge s.nextPins s.dropPins

/-- `s` with the command word whose bits are those of `w` below bit `nbits` in flight, so that the next step runs it. -/
def State.withFetchWord (s : State) (nbits w : Nat) : State := s.placeCommand (BitVec.ofNat 71 (w % 2 ^ nbits))

end Sys2Proof.Machine
end

