-- ==== Sys2Proof/Machine/Transactions.lean ====
section
/-! DEFINITION. Runs at the transaction level (R120, D34): what the host does, command by command, and what it observes. -/

namespace Sys2Proof.Machine

/-- `Exec(σ, w)` of R120 written on the architectural state alone, from the fields of the word: the reference that the meanings
are held to. -/
def Arch.exec (a : Arch) (w : CmdWord) : Arch :=
  let data := dataField w
  if (opField w).msb then { a with rspStatus := 0b01#2, rspData := 0 }
  else if opField w = 0b000#3 then { kv := true, ks := keySchedule data, rspStatus := 0b00#2, rspData := 0 }
  else if a.kv = false then { a with rspStatus := 0b10#2, rspData := 0 }
  else if opField w = 0b001#3 then { a with rspStatus := 0b00#2, rspData := transform data a.ks false }
  else if opField w = 0b010#3 then { a with rspStatus := 0b00#2, rspData := transform data a.ks true }
  else { a with rspStatus := 0b00#2, rspData := zext64 (keyOperand a.ks (idxField w)) }

/-- What the host can tell apart (R16, R17, U1): KS counts only while KV = 1. -/
def Arch.SameToHost (a b : Arch) : Prop :=
  a.kv = b.kv ∧ a.rspStatus = b.rspStatus ∧ a.rspData = b.rspData ∧ (a.kv = true → a.ks = b.ks)

/-- One response: the pair the host reads (R120). -/
structure Response where
  status : BitVec 2
  data : Block
deriving DecidableEq, Repr

/-- One move of the host at the transaction level (R68, R121). -/
inductive Move where
  /-- A command that is accepted and completes. -/
  | command (w : CmdWord)
  /-- `RESET` (R68): `rst` asserted with no command in flight. -/
  | reset
  /-- A command that is accepted and then aborted by a reset (R109). -/
  | aborted (w : CmdWord)
deriving DecidableEq, Repr

/-- The response registers as the host reads them. -/
def State.response (s : State) : Response := { status := s.rspStatus, data := s.rspData }

/-- What a move does. An aborted command leaves what a reset leaves (R109). -/
def Move.apply (m : Move) (s : State) : Result :=
  match m with
  | .command w => execWord w s
  | .reset => .next s.resetRegisters
  | .aborted _ => .next s.resetRegisters

/-- The response a move gives, read in the state after it: only a completed command gives one (R109, R119). -/
def Move.observe (m : Move) (after : State) : List Response :=
  match m with
  | .command _ => [after.response]
  | .reset => []
  | .aborted _ => []

/-- The responses of a sequence of moves, in order. -/
def responses : List Move → State → List Response
  | [], _ => []
  | m :: ms, s =>
    match m.apply s with
    | .next t => m.observe t ++ responses ms t
    | .fault _ => []
    | .refused _ => []

/-- The state after a sequence of moves. -/
def afterMoves : List Move → State → State
  | [], s => s
  | m :: ms, s =>
    match m.apply s with
    | .next t => afterMoves ms t
    | .fault _ => s
    | .refused _ => s

/-- What a move does to the key of the most recent KEYGEN completed since the last reset (R28). -/
def Move.keyAfter (m : Move) (before : Option Block) : Option Block :=
  match m with
  | .command w => if opField w = 0b000#3 then some (dataField w) else before
  | .reset => none
  | .aborted _ => none

/-- The key of the most recent KEYGEN completed since the last reset, if there is one (R28), after moves from a state that had
none. -/
def lastKeygen (ms : List Move) : Option Block := ms.foldl (fun before m => m.keyAfter before) none

/-- The observation of a run (R120): the responses, with the final KV and KS. -/
structure Observation where
  responses : List Response
  kv : Bool
  ks : KeyStore
deriving DecidableEq, Repr

/-- What a run from `s` shows. -/
def observeRun (ms : List Move) (s : State) : Observation :=
  { responses := Sys2Proof.Machine.responses ms s, kv := (afterMoves ms s).kv, ks := (afterMoves ms s).ks }

end Sys2Proof.Machine
end

