-- ==== Sys2Proof/Machine/Assembler.lean ====
section
/-! DEFINITION. The written forms of commands: the 18-digit hex form of a command word (R67) and the assembler lines of R68, read
from characters into the host's moves. Neither is part of the core: they are how the host writes a program (log 17). -/

namespace Sys2Proof.Machine.Asm

/-- The hex digit of a number below 16, in the capitals of R67. -/
def hexChar (n : Nat) : Char := ['0', '1', '2', '3', '4', '5', '6', '7', '8', '9', 'A', 'B', 'C', 'D', 'E', 'F'].getD n '0'

/-- The `k` low hex digits of a number, most significant first (R7). -/
def hexOf : Nat → Nat → List Char
  | 0, _ => []
  | k + 1, n => hexOf k (n / 16) ++ [hexChar (n % 16)]

/-- The value of a decimal digit. -/
def decDigit (ch : Char) : Option Nat := if 48 ≤ ch.toNat ∧ ch.toNat ≤ 57 then some (ch.toNat - 48) else none

/-- The value of a hex digit, in either case. -/
def hexDigit (ch : Char) : Option Nat :=
  if 65 ≤ ch.toNat ∧ ch.toNat ≤ 70 then some (ch.toNat - 55)
  else if 97 ≤ ch.toNat ∧ ch.toNat ≤ 102 then some (ch.toNat - 87)
  else decDigit ch

/-- Digits read most significant first, onto what has been read so far. -/
def readDigits (digit : Char → Option Nat) (base : Nat) : Nat → List Char → Option Nat
  | acc, [] => some acc
  | acc, ch :: chs =>
    match digit ch with
    | some v => readDigits digit base (acc * base + v) chs
    | none => none

/-- The 18-digit hex form of a command word (R67): the word zero-extended to 72 bits. -/
def hexForm (w : CmdWord) : List Char := hexOf 18 w.toNat

/-- A command word read from its hex form (R67); any other count of digits, and a first digit above 7, is refused. -/
def readHexForm (text : List Char) : Option CmdWord :=
  if text.length = 18 then (readDigits hexDigit 16 0 text).bind wordOfNat else none

/-- Why a line is refused. -/
inductive AsmError where
  /-- The line begins with no mnemonic of R68. -/
  | unknownCommand
  /-- The mnemonic has not the operands R68 gives it. -/
  | wrongOperands
  /-- A data operand is not `0x` and exactly 16 hex digits (R68: refused rather than padded or truncated). -/
  | notSixteenHexDigits
  /-- A decimal operand is no number in its range (R68). -/
  | numberOutOfRange
deriving DecidableEq, Repr

/-- A line up to its comment (R68: `;` starts a comment). -/
def stripComment (line : List Char) : List Char := line.takeWhile fun ch => ch != ';'

/-- The words of a line, parted by blanks; the first argument is the word being read, last character first. -/
def splitWords : List Char → List Char → List (List Char)
  | [], [] => []
  | word, [] => [word.reverse]
  | word, ch :: chs =>
    if ch = ' ' ∨ ch = '\t' then
      match word with
      | [] => splitWords [] chs
      | _ => word.reverse :: splitWords [] chs
    else splitWords (ch :: word) chs

/-- `0x<16 hex digits>` (R68). -/
def readBlock (word : List Char) : Except AsmError Block :=
  match word with
  | '0' :: 'x' :: digits =>
    if digits.length = 16 then
      match readDigits hexDigit 16 0 digits with
      | some n => .ok (BitVec.ofNat 64 n)
      | none => .error .notSixteenHexDigits
    else .error .notSixteenHexDigits
  | _ => .error .notSixteenHexDigits

/-- A decimal operand from 0 to `top` (R68). -/
def readNumber (top : Nat) (word : List Char) : Except AsmError Nat :=
  match word with
  | [] => .error .numberOutOfRange
  | _ =>
    match readDigits decDigit 10 0 word with
    | some n => if n ≤ top then .ok n else .error .numberOutOfRange
    | none => .error .numberOutOfRange

/-- A command with a data operand: `idx` is written as 0 (R68). -/
def dataCommand (op : BitVec 3) (operands : List (List Char)) : Except AsmError Move :=
  match operands with
  | [a] => (readBlock a).map fun data => .command (packWord op 0 data)
  | _ => .error .wrongOperands

/-- `RDKEY <n>`: `data` is written as 0 (R68). -/
def rdkeyCommand (operands : List (List Char)) : Except AsmError Move :=
  match operands with
  | [a] => (readNumber 15 a).map fun n => .command (packWord 0b011#3 (BitVec.ofNat 4 n) 0)
  | _ => .error .wrongOperands

/-- `.word <op> <idx> 0x<16 hex digits>` (R68). -/
def wordCommand (operands : List (List Char)) : Except AsmError Move :=
  match operands with
  | [a, b, c] =>
    match readNumber 7 a, readNumber 15 b, readBlock c with
    | .ok op, .ok idx, .ok data => .ok (.command (packWord (BitVec.ofNat 3 op) (BitVec.ofNat 4 idx) data))
    | .error e, _, _ => .error e
    | _, .error e, _ => .error e
    | _, _, .error e => .error e
  | _ => .error .wrongOperands

/-- `RESET` (R68): no command, but the host's reset. -/
def resetLine (operands : List (List Char)) : Except AsmError Move :=
  match operands with
  | [] => .ok .reset
  | _ => .error .wrongOperands

/-- One line of R68; a line of blanks and comment gives no move. -/
def assembleLine (line : List Char) : Except AsmError (Option Move) :=
  match splitWords [] (stripComment line) with
  | [] => .ok none
  | name :: operands =>
    if name = ['K', 'E', 'Y', 'G', 'E', 'N'] then (dataCommand 0b000#3 operands).map some
    else if name = ['E', 'N', 'C', 'R', 'Y', 'P', 'T'] then (dataCommand 0b001#3 operands).map some
    else if name = ['D', 'E', 'C', 'R', 'Y', 'P', 'T'] then (dataCommand 0b010#3 operands).map some
    else if name = ['R', 'D', 'K', 'E', 'Y'] then (rdkeyCommand operands).map some
    else if name = ['.', 'w', 'o', 'r', 'd'] then (wordCommand operands).map some
    else if name = ['R', 'E', 'S', 'E', 'T'] then (resetLine operands).map some
    else .error .unknownCommand

end Sys2Proof.Machine.Asm
end

