-- ==== Sys2Proof/Machine/ClockRuns.lean ====
section
/-! DEFINITION. Runs of the clock, edge by edge, read as runs at the transaction level (R113, R120): which moves the edges make and
which responses they signal. -/

namespace Sys2Proof.Machine

/-- R113: the next edge completes the command in flight. -/
def State.completesNext (s : State) : Bool := !s.nextPins.rst && s.busy && decide (s.latLeft ≤ 1)

/-- What the next edge does at the transaction level: a reset, the command it completes, or nothing. -/
def State.moveOfEdge (s : State) : List Move :=
  if s.nextPins.rst then [.reset] else if s.completesNext then [.command s.cmdWord] else []

/-- What a move is at the clock: an aborted command shows there as the reset that aborts it (R109). -/
def Move.atClock (m : Move) : Move :=
  match m with
  | .command w => .command w
  | .reset => .reset
  | .aborted _ => .reset

/-- The moves of `n` edges, in order, up to the first edge that stops. -/
def clockMoves : Nat → State → List Move
  | 0, _ => []
  | n + 1, s =>
    match step s with
    | .next t => s.moveOfEdge ++ clockMoves n t
    | .fault _ => []
    | .refused _ => []

/-- The responses that RSP_VALID signals over `n` edges (R21), in order, up to the first edge that stops. -/
def clockResponses : Nat → State → List Response
  | 0, _ => []
  | n + 1, s =>
    match step s with
    | .next t => (if t.rspValid then [t.response] else []) ++ clockResponses n t
    | .fault _ => []
    | .refused _ => []

end Sys2Proof.Machine
end

