-- ==== Sys2Proof/Safety.lean ====
section
/-! DEFINITION. What counts as a failure (R96), and the invariants of the core (R28, R93, R20, R21). -/

namespace Sys2Proof.Machine

/-- R96: a response that is no failure has status `00`. -/
def Response.ok (r : Response) : Bool := r.status == statusOk

/-- R96: a program does not fail when every response has status `00`. -/
def runsWithoutFailure (ms : List Move) (s : State) : Bool := (responses ms s).all Response.ok

/-- R28: when KV = 1, KS is the schedule of some master key. -/
def State.KeysAreASchedule (s : State) : Prop := s.kv = true → ∃ key, s.ks = keySchedule key

/-- R93, R96: the status is one of the three codes, an error's data is 0, a NO_KEY stands only while KV = 0, and with KV = 0 there
is no result to show. -/
def State.ResponseIsLegal (s : State) : Prop :=
  (s.rspStatus = statusOk ∨ s.rspStatus = statusIllegalOp ∨ s.rspStatus = statusNoKey) ∧
  (s.rspStatus ≠ statusOk → s.rspData = 0) ∧
  (s.rspStatus = statusNoKey → s.kv = false) ∧
  (s.kv = false → s.rspData = 0)

/-- R20, R21, R25, R113: while a command is in flight no response is signalled, at least one edge is left, and RC is 0 to 16. -/
def State.SequencingIsLegal (s : State) : Prop :=
  s.busy = true → s.rspValid = false ∧ 1 ≤ s.latLeft ∧ s.workRC.toNat ≤ 16

/-- The invariant of the core. -/
structure State.Inv (s : State) : Prop where
  keys : s.KeysAreASchedule
  response : s.ResponseIsLegal
  sequencing : s.SequencingIsLegal

end Sys2Proof.Machine
end

