-- ==== Sys2Proof/Certificates/Slice0/Obligations.lean ====
section
/-! DEFINITION. The statements for the provers. Each docstring says which rule of spec/ a statement formalises, or which of the
model's own choices it rests on. -/

open Sys2Proof Sys2Proof.Machine

/-! ## Primitives and ROMs -/

/-- R7: position `p` of an n-bit Bit Block is vector bit `n - p`, so position 1 is the most significant bit. -/
def Obligations.PositionOneIsTheMostSignificantBit : Prop :=
  ∀ (n : Nat) (b : BitVec n), (∀ p, 1 ≤ p → p ≤ n → pos b p = b.getLsbD (n - p)) ∧ pos b 1 = b.msb

/-- R9: position `k` of `Permute(T, x)` is position `T[k]` of `x`; in vector terms bit `|T| - k` is bit `n_in - T[k]`. For every
table whose entries lie in `[1, n_in]`. -/
def Obligations.PermuteTakesThePositionTheTableNames : Prop :=
  ∀ (n : Nat) (table : List Nat) (x : BitVec n),
    (∀ k, 1 ≤ k → k ≤ table.length → 1 ≤ Rom.romRead table k ∧ Rom.romRead table k ≤ n) →
    ∀ k, 1 ≤ k → k ≤ table.length →
      pos (permute table.length table x) k = pos x (Rom.romRead table k) ∧
      (permute table.length table x).getLsbD (table.length - k) = x.getLsbD (n - Rom.romRead table k)

/-- R10: both forms of the rule, by positions and as a vector of numbers modulo 2^28. -/
def Obligations.RotateMovesPositionsTowardTheFront : Prop :=
  ∀ (v : HalfKey) (s : Nat), s = 1 ∨ s = 2 →
    (∀ p, 1 ≤ p → p ≤ 28 → pos (rotl28 v s) p = pos v ((p - 1 + s) % 28 + 1)) ∧
    (rotl28 v s).toNat = ((v.toNat <<< s) ||| (v.toNat >>> (28 - s))) % 2 ^ 28

/-- R35, the bounds, and the structure the spec derives from the tables of R36 to R50: SHIFT sums to 28; PC1 has no multiple of 8
and PC2 none of the eight values it drops, each of the others once, C before D; IPINV inverts IP as a table; P is a permutation;
E repeats just the sixteen values named; every row of every S-box is a permutation of 0 to 15. -/
def Obligations.RomTablesHaveTheirStatedStructure : Prop :=
  Rom.wellFormed = true ∧
  Rom.shift.sum = 28 ∧
  (Rom.pc1.Nodup ∧ ∀ k ∈ Rom.pc1, k % 8 ≠ 0) ∧
  (Rom.pc2.Nodup ∧ (∀ k ∈ Rom.pc2, k ∉ [9, 18, 22, 25, 35, 38, 43, 54]) ∧
    (∀ k ∈ Rom.pc2.take 24, k ≤ 28) ∧ (∀ k ∈ Rom.pc2.drop 24, 29 ≤ k)) ∧
  (∀ k ∈ List.range' 1 64, Rom.romRead Rom.ipinv (Rom.romRead Rom.ip k) = k) ∧
  (∀ v ∈ List.range' 1 32, v ∈ Rom.pbox) ∧
  (∀ v ∈ List.range' 1 32, Rom.expansion.count v =
    if v ∈ [1, 4, 5, 8, 9, 12, 13, 16, 17, 20, 21, 24, 25, 28, 29, 32] then 2 else 1) ∧
  (∀ box ∈ Rom.sBoxes, ∀ row ∈ box, ∀ v ∈ List.range 16, v ∈ row)

/-- Derived in R40 from R39, R40 and R9: IPINV undoes IP on every block, and IP undoes IPINV. -/
def Obligations.InverseInitialPermutationUndoesInitial : Prop :=
  ∀ x : Block, permute 64 Rom.ipinv (permute 64 Rom.ip x) = x ∧ permute 64 Rom.ip (permute 64 Rom.ipinv x) = x

/-! ## Key schedule -/

/-- R73, with R70, R71 and R72 as its steps: C0 ‖ D0 is PC-1 of the key, each round rotates both halves by SHIFT, and entry `i` of
the schedule is PC-2 of the halves after round `i + 1`. -/
def Obligations.KeyScheduleRunsItsSixteenRounds : Prop :=
  ∀ key : Block,
    (keyHalves key 0).c ++ (keyHalves key 0).d = permute 56 Rom.pc1 key ∧
    (∀ i, i < 16 → (keyHalves key (i + 1)).c = rotl28 (keyHalves key i).c (Rom.shiftAt i) ∧
      (keyHalves key (i + 1)).d = rotl28 (keyHalves key i).d (Rom.shiftAt i)) ∧
    (∀ i, i < 16 → storeAt (keySchedule key) i =
      permute 48 Rom.pc2 ((keyHalves key (i + 1)).c ++ (keyHalves key (i + 1)).d))

/-- A closed form of R70, R71 and R72 together: every position of a round key is one position of the master key, found through
PC2, the sum of the rotations so far within the half PC2 reads from, and PC1. -/
def Obligations.EveryRoundKeyBitIsOneKeyBit : Prop :=
  ∀ (key : Block) (n k : Nat), 1 ≤ n → n ≤ 16 → 1 ≤ k → k ≤ 48 →
    let turned := (Rom.shift.take n).sum
    let q := Rom.romRead Rom.pc2 k
    pos (storeAt (keySchedule key) (n - 1)) k =
      if q ≤ 28 then pos key (Rom.romRead Rom.pc1 ((q - 1 + turned) % 28 + 1))
      else pos key (Rom.romRead Rom.pc1 ((q - 29 + turned) % 28 + 29))

/-- R74 item 1: C16 = C0 and D16 = D0. -/
def Obligations.SixteenRotationsReturnTheHalves : Prop :=
  ∀ key : Block, (keyHalves key 16).c = (keyHalves key 0).c ∧ (keyHalves key 16).d = (keyHalves key 0).d

/-- R70, R74 item 2: keys that differ only in positions 8, 16, ..., 64 have the same schedule. -/
def Obligations.ParityPositionsDoNotAffectTheSchedule : Prop :=
  ∀ key key' : Block, (∀ p, 1 ≤ p → p ≤ 64 → p % 8 ≠ 0 → pos key p = pos key' p) → keySchedule key = keySchedule key'

/-- R74 item 3: if every bit of C0 is equal and every bit of D0 is equal, all 16 round keys are equal; and the four keys the rule
names give all-zero and all-one round keys. -/
def Obligations.ConstantHalvesGiveEqualRoundKeys : Prop :=
  (∀ (key : Block) (a b : Bool), (∀ p, 1 ≤ p → p ≤ 28 → pos (keyHalves key 0).c p = a) →
    (∀ p, 1 ≤ p → p ≤ 28 → pos (keyHalves key 0).d p = b) →
    ∀ i j, i < 16 → j < 16 → storeAt (keySchedule key) i = storeAt (keySchedule key) j) ∧
  (∀ i, i < 16 → storeAt (keySchedule 0x0000000000000000) i = 0 ∧ storeAt (keySchedule 0x0101010101010101) i = 0 ∧
    storeAt (keySchedule 0xFFFFFFFFFFFFFFFF) i = 0xFFFFFFFFFFFF ∧
    storeAt (keySchedule 0xFEFEFEFEFEFEFEFE) i = 0xFFFFFFFFFFFF)

/-- R74 item 4: complementing the master key complements every round key. -/
def Obligations.ComplementedKeyComplementsRoundKeys : Prop :=
  ∀ (key : Block) (i : Nat), i < 16 → storeAt (keySchedule (~~~key)) i = ~~~(storeAt (keySchedule key) i)

/-! ## Block transform -/

/-- R80: row and column of every chunk, in both forms of the rule (chunk bit b0 is vector bit 5), and their ranges. -/
def Obligations.SBoxRowAndColumnComeFromTheChunk : Prop :=
  ∀ ch : Chunk,
    sRow ch = 2 * (ch.getLsbD 5).toNat + (ch.getLsbD 0).toNat ∧
    sCol ch = 8 * (ch.getLsbD 4).toNat + 4 * (ch.getLsbD 3).toNat + 2 * (ch.getLsbD 2).toNat + (ch.getLsbD 1).toNat ∧
    sRow ch = (((ch >>> 5) <<< 1) ||| (ch &&& 1)).toNat ∧ sCol ch = (ch.extractLsb' 1 4).toNat ∧ sRow ch ≤ 3 ∧ sCol ch ≤ 15

/-- R81: lane `j` writes vector bits `[31-4(j-1) : 28-4(j-1)]` with the entry that chunk `j`, vector bits
`[47-6(j-1) : 42-6(j-1)]`, selects in `Sj`, and depends on no other bit of the input. -/
def Obligations.SBoxLanesAreIndependent : Prop :=
  ∀ (x : SubKey) (j : Nat), 1 ≤ j → j ≤ 8 →
    (let ch : Chunk := x.extractLsb' (42 - 6 * (j - 1)) 6
     (sArray x).extractLsb' (28 - 4 * (j - 1)) 4 = Rom.sRom j (sRow ch) (sCol ch)) ∧
    ∀ y : SubKey, x.extractLsb' (42 - 6 * (j - 1)) 6 = y.extractLsb' (42 - 6 * (j - 1)) 6 →
      (sArray x).extractLsb' (28 - 4 * (j - 1)) 4 = (sArray y).extractLsb' (28 - 4 * (j - 1)) 4

/-- R88, with R77, R78, R79, R82 to R87 as its steps: the halves of the initial permutation; sixteen rounds, each with the key of
its direction and both right-hand sides from before the round; and the final permutation of R16 ‖ L16. -/
def Obligations.TransformRunsItsSixteenRounds : Prop :=
  ∀ (block : Block) (ks : KeyStore) (rev : Bool),
    let halves := feistelHalves ks rev (initialHalves block)
    (halves 0).l ++ (halves 0).r = permute 64 Rom.ip block ∧
    (∀ i, i < 16 → (halves (i + 1)).l = (halves i).r ∧
      (halves (i + 1)).r = (halves i).l ^^^
        permute 32 Rom.pbox (sArray (permute 48 Rom.expansion (halves i).r ^^^
          (if rev then storeAt ks (15 - i) else storeAt ks i)))) ∧
    (∀ i, i < 16 → ks[i]? = some (storeAt ks i)) ∧
    transform block ks rev = permute 64 Rom.ipinv ((halves 16).r ++ (halves 16).l)

/-- R89 item 2: with the ciphertext of B, the halves after decryption round `i` are the encryption's halves after round `16 - i`,
exchanged. -/
def Obligations.DecryptionRunsTheRoundsBackwards : Prop :=
  ∀ (block : Block) (ks : KeyStore) (i : Nat), i ≤ 16 →
    let enc := feistelHalves ks false (initialHalves block) (16 - i)
    feistelHalves ks true (initialHalves (transform block ks false)) i = { l := enc.r, r := enc.l }

/-- R89 item 1: the round trip, for every block and every subkey store, in both orders. -/
def Obligations.TransformRoundTrip : Prop :=
  ∀ (block : Block) (ks : KeyStore),
    transform (transform block ks false) ks true = block ∧ transform (transform block ks true) ks false = block

/-- R89 item 3: complementing key and block complements the result. -/
def Obligations.TransformComplementation : Prop :=
  ∀ key block : Block,
    transform (~~~block) (keySchedule (~~~key)) false = ~~~(transform block (keySchedule key) false)

/-- R89 item 4: with 16 equal entries both directions agree, and the transform is its own inverse. -/
def Obligations.EqualRoundKeysMakeDirectionsAgree : Prop :=
  ∀ (block : Block) (ks : KeyStore), (∀ i, i < 16 → storeAt ks i = storeAt ks 0) →
    transform block ks true = transform block ks false ∧ transform (transform block ks false) ks false = block

/-! ## Encoding -/

/-- Decoding an encoded well-formed command gives it back, every field at every value (R60, R61). -/
def Obligations.DecodeOfEncodeIsTheCommand : Prop :=
  ∀ i : Instr, i.wf = true → ∃ w, encode i = some w ∧ decodeWord w = i

/-- R65: decoding is total, every word decodes to a well-formed command. That this command's word is the word it came from is the
model's choice (log 11): Instr keeps the fields that R65's `KEYGEN(data)` and the like leave out. -/
def Obligations.EncodeOfDecodeIsTheWord : Prop :=
  ∀ w : CmdWord, (decodeWord w).wf = true ∧ encode (decodeWord w) = some w

/-- R65: the five cases of `Decode`, by the vector bits of the word; every word falls under exactly one. -/
def Obligations.EveryWordDecodesByItsOpField : Prop :=
  ∀ w : CmdWord,
    (w.extractLsb' 68 3 = 0b000#3 → decodeWord w = .keygen (w.extractLsb' 64 4) (w.extractLsb' 0 64)) ∧
    (w.extractLsb' 68 3 = 0b001#3 → decodeWord w = .encrypt (w.extractLsb' 64 4) (w.extractLsb' 0 64)) ∧
    (w.extractLsb' 68 3 = 0b010#3 → decodeWord w = .decrypt (w.extractLsb' 64 4) (w.extractLsb' 0 64)) ∧
    (w.extractLsb' 68 3 = 0b011#3 → decodeWord w = .rdkey (w.extractLsb' 64 4) (w.extractLsb' 0 64)) ∧
    (w.getLsbD 70 = true → decodeWord w = .illegal (w.extractLsb' 68 3) (w.extractLsb' 64 4) (w.extractLsb' 0 64))

/-- opcode_table.json: a word meets a row's match and mask exactly when it decodes to that row's command. -/
def Obligations.OpcodeTableMasksSelectTheCommand : Prop :=
  ∀ w : CmdWord,
    (w &&& 0x700000000000000000#71 = 0x000000000000000000#71 ↔ ∃ idx key, decodeWord w = .keygen idx key) ∧
    (w &&& 0x700000000000000000#71 = 0x100000000000000000#71 ↔ ∃ idx block, decodeWord w = .encrypt idx block) ∧
    (w &&& 0x700000000000000000#71 = 0x200000000000000000#71 ↔ ∃ idx block, decodeWord w = .decrypt idx block) ∧
    (w &&& 0x700000000000000000#71 = 0x300000000000000000#71 ↔ ∃ idx data, decodeWord w = .rdkey idx data) ∧
    (w &&& 0x400000000000000000#71 = 0x400000000000000000#71 ↔ ∃ op idx data, decodeWord w = .illegal op idx data)

/-- The written forms of R67: nine bytes and 18 hex digits read back as the command they were written from; what has another
length, or a first digit above 7, is refused, in both forms. The byte form is the model's (log 12). -/
def Obligations.WrittenFormsReadBack : Prop :=
  (∀ i : Instr, i.wf = true → decodeBytes (encodeBytes i) = .ok i) ∧
  (∀ bytes : List Byte, bytes.length ≠ 9 → decodeBytes bytes = .error .wrongLength) ∧
  (∀ (b : Byte) (rest : List Byte), rest.length = 8 → b.msb = true → decodeBytes (b :: rest) = .error .notACommandWord) ∧
  (∀ w : CmdWord, (Asm.hexForm w).length = 18 ∧ Asm.readHexForm (Asm.hexForm w) = some w) ∧
  (∀ text : List Char, text.length ≠ 18 → Asm.readHexForm text = none) ∧
  (∀ (ch : Char) (rest : List Char) (v : Nat), Asm.hexDigit ch = some v → 7 < v → Asm.readHexForm (ch :: rest) = none)

/-- Words written out from R60, R61 and R67: each command with its ignored fields zero or not, and with an ignored field not zero.
The last two clauses are about the host's numbering of a word as 72 bits, which the model follows (log 12). -/
def Obligations.SampleWordsDecode : Prop :=
  decodeWord 0x09133457799BBCDFF1 = .keygen 9 0x133457799BBCDFF1 ∧
  decodeWord 0x100123456789ABCDEF = .encrypt 0 0x0123456789ABCDEF ∧
  decodeWord 0x1F0123456789ABCDEF = .encrypt 15 0x0123456789ABCDEF ∧
  decodeWord 0x2085E813540F0AB405 = .decrypt 0 0x85E813540F0AB405 ∧
  decodeWord 0x2685E813540F0AB405 = .decrypt 6 0x85E813540F0AB405 ∧
  decodeWord 0x3F0000000000000000 = .rdkey 15 0 ∧
  decodeWord 0x32FFFFFFFFFFFFFFFF = .rdkey 2 0xFFFFFFFFFFFFFFFF ∧
  decodeWord 0x530123456789ABCDEF = .illegal 5 3 0x0123456789ABCDEF ∧
  decodeTableWord 72 0x38FFFFFFFFFFFFFFFF = some (.rdkey 8 0xFFFFFFFFFFFFFFFF) ∧
  decodeTableWord 72 0x800000000000000000 = none

/-- R68: each line of the assembler syntax gives the word the rule says, ignored fields written as 0, for every operand; a data
operand with any other count of hex digits, and a number out of its range, are refused. -/
def Obligations.AssemblerLinesGiveTheirWords : Prop :=
  (∀ data : Block,
    Asm.assembleLine (['K', 'E', 'Y', 'G', 'E', 'N', ' ', '0', 'x'] ++ Asm.hexOf 16 data.toNat) =
      .ok (some (.command (packWord 0b000#3 0 data))) ∧
    Asm.assembleLine (['E', 'N', 'C', 'R', 'Y', 'P', 'T', ' ', '0', 'x'] ++ Asm.hexOf 16 data.toNat) =
      .ok (some (.command (packWord 0b001#3 0 data))) ∧
    Asm.assembleLine (['D', 'E', 'C', 'R', 'Y', 'P', 'T', ' ', '0', 'x'] ++ Asm.hexOf 16 data.toNat) =
      .ok (some (.command (packWord 0b010#3 0 data)))) ∧
  (∀ n ∈ List.range 16,
    Asm.assembleLine (['R', 'D', 'K', 'E', 'Y', ' '] ++ Nat.toDigits 10 n) =
      .ok (some (.command (packWord 0b011#3 (BitVec.ofNat 4 n) 0)))) ∧
  (∀ op ∈ List.range 8, ∀ idx ∈ List.range 16, ∀ data : Block,
    Asm.assembleLine (['.', 'w', 'o', 'r', 'd', ' '] ++ Nat.toDigits 10 op ++ [' '] ++ Nat.toDigits 10 idx ++
      [' ', '0', 'x'] ++ Asm.hexOf 16 data.toNat) =
      .ok (some (.command (packWord (BitVec.ofNat 3 op) (BitVec.ofNat 4 idx) data)))) ∧
  Asm.assembleLine ['R', 'E', 'S', 'E', 'T'] = .ok (some .reset) ∧
  (∀ (line comment : List Char), Asm.assembleLine (line ++ ';' :: comment) = Asm.assembleLine line) ∧
  (∀ digits : List Char, digits.length ≠ 16 → (∀ ch ∈ digits, (Asm.hexDigit ch).isSome = true) →
    Asm.assembleLine (['K', 'E', 'Y', 'G', 'E', 'N', ' ', '0', 'x'] ++ digits) = .error .notSixteenHexDigits ∧
    Asm.assembleLine (['E', 'N', 'C', 'R', 'Y', 'P', 'T', ' ', '0', 'x'] ++ digits) = .error .notSixteenHexDigits ∧
    Asm.assembleLine (['D', 'E', 'C', 'R', 'Y', 'P', 'T', ' ', '0', 'x'] ++ digits) = .error .notSixteenHexDigits ∧
    ∀ op ∈ List.range 8, ∀ idx ∈ List.range 16,
      Asm.assembleLine (['.', 'w', 'o', 'r', 'd', ' '] ++ Nat.toDigits 10 op ++ [' '] ++ Nat.toDigits 10 idx ++
        [' ', '0', 'x'] ++ digits) = .error .notSixteenHexDigits) ∧
  (∀ n : Nat, 15 < n →
    Asm.assembleLine (['R', 'D', 'K', 'E', 'Y', ' '] ++ Nat.toDigits 10 n) = .error .numberOutOfRange) ∧
  (∀ (op idx : Nat) (data : Block), 7 < op ∨ 15 < idx →
    Asm.assembleLine (['.', 'w', 'o', 'r', 'd', ' '] ++ Nat.toDigits 10 op ++ [' '] ++ Nat.toDigits 10 idx ++
      [' ', '0', 'x'] ++ Asm.hexOf 16 data.toNat) = .error .numberOutOfRange)

/-! ## Commands -/

/-- R75: a word with op `000` is KEYGEN, which completes with OK and data 0 from every state, for every key and `idx`; all 16 entries are the schedule's, KV is 1. -/
def Obligations.KeygenStoresTheWholeSchedule : Prop :=
  ∀ (idx : BitVec 4) (key : Block) (s : State),
    decodeWord (packWord 0b000#3 idx key) = .keygen idx key ∧
    ∃ t, exec (.keygen idx key) s = .next t ∧ t.kv = true ∧ t.ks = keySchedule key ∧
      t.rspStatus = 0b00#2 ∧ t.rspData = 0 ∧ t.rspValid = true ∧ t.busy = false

/-- R76: a word with op `011` is RDKEY; with KV = 1 it completes with OK and the zero-extended entry `idx` of KS, for every `idx` and `data`; with KV = 0 it
completes with NO_KEY and 0. KV and KS are unchanged. -/
def Obligations.RdkeyReturnsTheSelectedEntry : Prop :=
  ∀ (idx : BitVec 4) (data : Block) (s : State),
    decodeWord (packWord 0b011#3 idx data) = .rdkey idx data ∧
    ∃ t, exec (.rdkey idx data) s = .next t ∧ t.kv = s.kv ∧ t.ks = s.ks ∧ t.rspValid = true ∧ t.busy = false ∧
      (s.kv = true → t.rspStatus = 0b00#2 ∧ t.rspData.extractLsb' 48 16 = 0 ∧
        s.ks[idx.toNat]? = some (t.rspData.extractLsb' 0 48)) ∧
      (s.kv = false → t.rspStatus = 0b10#2 ∧ t.rspData = 0)

/-- R90: a word with op `001` is ENCRYPT; with KV = 1 it completes with OK and the forward transform of its block, whatever `idx` is; with KV = 0 with NO_KEY
and 0. KV and KS are unchanged. -/
def Obligations.EncryptRespondsWithTheForwardTransform : Prop :=
  ∀ (idx : BitVec 4) (block : Block) (s : State),
    decodeWord (packWord 0b001#3 idx block) = .encrypt idx block ∧
    ∃ t, exec (.encrypt idx block) s = .next t ∧ t.kv = s.kv ∧ t.ks = s.ks ∧ t.rspValid = true ∧ t.busy = false ∧
      (s.kv = true → t.rspStatus = 0b00#2 ∧ t.rspData = transform block s.ks false) ∧
      (s.kv = false → t.rspStatus = 0b10#2 ∧ t.rspData = 0)

/-- R91: a word with op `010` is DECRYPT; with KV = 1 it completes with OK and the transform of its block with the key order reversed, whatever `idx` is; with
KV = 0 with NO_KEY and 0. KV and KS are unchanged. -/
def Obligations.DecryptRespondsWithTheReverseTransform : Prop :=
  ∀ (idx : BitVec 4) (block : Block) (s : State),
    decodeWord (packWord 0b010#3 idx block) = .decrypt idx block ∧
    ∃ t, exec (.decrypt idx block) s = .next t ∧ t.kv = s.kv ∧ t.ks = s.ks ∧ t.rspValid = true ∧ t.busy = false ∧
      (s.kv = true → t.rspStatus = 0b00#2 ∧ t.rspData = transform block s.ks true) ∧
      (s.kv = false → t.rspStatus = 0b10#2 ∧ t.rspData = 0)

/-- R94: a word with a reserved op is ILLEGAL, which completes with ILLEGAL_OP and 0, whatever its other fields, KV and KS; KV and KS are unchanged. -/
def Obligations.ReservedOpRespondsIllegal : Prop :=
  ∀ (op : BitVec 3) (idx : BitVec 4) (data : Block) (s : State), (Instr.illegal op idx data).wf = true →
    decodeWord (packWord op idx data) = .illegal op idx data ∧
    ∃ t, exec (.illegal op idx data) s = .next t ∧ t.rspStatus = 0b01#2 ∧ t.rspData = 0 ∧
      t.kv = s.kv ∧ t.ks = s.ks ∧ t.rspValid = true ∧ t.busy = false

/-- R95: ENCRYPT, DECRYPT and RDKEY with KV = 0 complete with NO_KEY and 0, KV and KS unchanged. -/
def Obligations.NoKeyRejectsTheThreeReaders : Prop :=
  ∀ (i : Instr) (idx : BitVec 4) (data : Block) (s : State),
    i = .encrypt idx data ∨ i = .decrypt idx data ∨ i = .rdkey idx data → s.kv = false →
    ∃ t, exec i s = .next t ∧ t.rspStatus = 0b10#2 ∧ t.rspData = 0 ∧ t.kv = s.kv ∧ t.ks = s.ks

/-- R97, R93: the one status each command reports: a reserved op ILLEGAL_OP whatever KV is, NO_KEY only for the three readers with
KV = 0, OK otherwise; so `11` never. -/
def Obligations.StatusIsDecidedByOpThenKey : Prop :=
  ∀ (i : Instr) (s t : State), i.wf = true → exec i s = .next t →
    t.rspStatus =
      if i.op.msb then 0b01#2 else if i.op ≠ 0b000#3 ∧ s.kv = false then 0b10#2 else 0b00#2

/-- R27, the frame of every command: KEYGEN writes KV and all of KS, no other command writes either; the response registers are
written, with 0 for KEYGEN and every error. Nothing of the host's input changes. The working registers, and the model's counter of
free values, are what R25 leaves unspecified after a command. -/
def Obligations.CommandsWriteOnlyTheirTableRow : Prop :=
  ∀ (i : Instr) (s t : State), exec i s = .next t →
    t.pins = s.pins ∧ t.offer = s.offer ∧
    ((∃ idx key, i = .keygen idx key ∧ t.kv = true ∧ t.ks = keySchedule key ∧ t.rspStatus = 0b00#2 ∧ t.rspData = 0) ∨
     ((∀ idx key, i ≠ .keygen idx key) ∧ t.kv = s.kv ∧ t.ks = s.ks ∧ (t.rspStatus ≠ 0b00#2 → t.rspData = 0)))

/-- R62 and R63: `idx` changes nothing for KEYGEN, ENCRYPT, DECRYPT and the reserved ops; `data` changes nothing for RDKEY and the
reserved ops; which reserved op it is changes nothing either (R94). The whole answer is the same. -/
def Obligations.IgnoredFieldsChangeNothing : Prop :=
  ∀ (idx idx' : BitVec 4) (data data' : Block) (op op' : BitVec 3) (s : State),
    exec (.keygen idx data) s = exec (.keygen idx' data) s ∧
    exec (.encrypt idx data) s = exec (.encrypt idx' data) s ∧
    exec (.decrypt idx data) s = exec (.decrypt idx' data) s ∧
    exec (.rdkey idx data) s = exec (.rdkey idx data') s ∧
    exec (.illegal op idx data) s = exec (.illegal op' idx' data') s

/-- R120: `Exec(σ, w)` is total, and what a command does to the architectural state is the rule's own case list, written on the
fields of the word. -/
def Obligations.ExecIsTheTransactionStepOfTheSpec : Prop :=
  ∀ (w : CmdWord) (s : State), ∃ t, execWord w s = .next t ∧ t.arch = s.arch.exec w

/-- R96: a command that reports an error leaves the next command's architectural result what it would have been without it. -/
def Obligations.ErrorsLeaveNoTrace : Prop :=
  ∀ (i j : Instr) (s t : State), exec j s = .next t → t.rspStatus ≠ 0b00#2 →
    ∃ u v, exec i s = .next u ∧ exec i t = .next v ∧ v.arch = u.arch

/-- R28, in every state that any run of the clock reaches from a state with KV = 0: KV is 1 exactly when a KEYGEN has completed since
the last reset edge, and then KS holds, entry by entry, the round keys of the key of the most recent one. -/
def Obligations.KeysAreThoseOfTheLastKeygen : Prop :=
  ∀ (n : Nat) (s t : State), s.kv = false → Host.Core.run Sys2Proof.core n s = .next t →
    (t.kv = true ↔ ∃ key, lastKeygen (clockMoves n s) = some key) ∧
    ∀ key, lastKeygen (clockMoves n s) = some key →
      ∀ k, 1 ≤ k → k ≤ 16 → storeAt t.ks (k - 1) = roundKey key k

/-- R54: repeating a command with the same word gives the same response, and leaves KV and KS as the first time. -/
def Obligations.RepeatingACommandRepeatsItsResponse : Prop :=
  ∀ (i : Instr) (s t : State), exec i s = .next t → ∃ u, exec i t = .next u ∧ u.arch = t.arch

/-- R116, R56: a KEYGEN is seen whole by the very next command: ENCRYPT and RDKEY right after it use the new schedule. -/
def Obligations.KeygenIsSeenByTheNextCommand : Prop :=
  ∀ (s : State) (idx idx' : BitVec 4) (key data : Block),
    ∃ t u v, exec (.keygen idx key) s = .next t ∧
      exec (.encrypt idx' data) t = .next u ∧ u.rspStatus = 0b00#2 ∧ u.rspData = transform data (keySchedule key) false ∧
      exec (.rdkey idx' data) t = .next v ∧ v.rspStatus = 0b00#2 ∧
        v.rspData = zext64 (roundKey key (idx'.toNat + 1))

/-- R91, R89 item 1: under a valid key, DECRYPT of an ENCRYPT result returns the block, ENCRYPT of a DECRYPT result too, and KV and
KS are what they were. -/
def Obligations.DecryptUndoesEncryptThroughCommands : Prop :=
  ∀ (s : State) (idx idx' : BitVec 4) (block : Block), s.kv = true →
    (∃ t u, exec (.encrypt idx block) s = .next t ∧ exec (.decrypt idx' t.rspData) t = .next u ∧
      u.rspStatus = 0b00#2 ∧ u.rspData = block ∧ u.kv = s.kv ∧ u.ks = s.ks) ∧
    (∃ t u, exec (.decrypt idx block) s = .next t ∧ exec (.encrypt idx' t.rspData) t = .next u ∧
      u.rspStatus = 0b00#2 ∧ u.rspData = block ∧ u.kv = s.kv ∧ u.ks = s.ks)

/-- R16, R17, R26, U1, U2: what the spec leaves unspecified is never observed. Two states that agree on what the host can tell apart
(KS only while KV = 1), whatever their working registers, sequencing and host input, answer every sequence of commands and resets
with the same responses, and end in states that agree again. -/
def Obligations.UnspecifiedStateIsNeverObserved : Prop :=
  ∀ (ms : List Move) (s s' : State), s.arch.SameToHost s'.arch →
    responses ms s = responses ms s' ∧ (afterMoves ms s).arch.SameToHost (afterMoves ms s').arch

/-! ## Reset, the handshake and the clock -/

/-- R17 to R21, R108: what State.reset holds where the spec gives a reset value. -/
def Obligations.ResetStateHoldsTheResetValues : Prop :=
  State.reset.kv = false ∧ State.reset.busy = false ∧ State.reset.rspValid = false ∧
  State.reset.rspStatus = 0b00#2 ∧ State.reset.rspData = 0

/-- R108, R107, R109: a reset edge, from every state, a command in flight or not and whatever the pins raise, leaves the values the
rule gives, accepts nothing and answers nothing. -/
def Obligations.ResetEdgeActsFromEveryState : Prop :=
  ∀ s : State, s.nextPins.rst = true →
    ∃ t, step s = .next t ∧ t.kv = false ∧ t.busy = false ∧ t.rspValid = false ∧ t.rspStatus = 0b00#2 ∧ t.rspData = 0 ∧
      accepts s s.nextPins = false ∧ cmdReady s s.nextPins = false ∧ t.pins = s.pins.tail

/-- A command in flight at its last edge is run by the step: the step is `exec` of the decoded captured word, in the state whose pin
sample has been taken, with what the host has to hold after this edge (R113; log 1). -/
def Obligations.StepRunsTheCommandInFlight : Prop :=
  ∀ (s : State) (i : Instr), s.busy = true → s.latLeft = 1 → s.nextPins.rst = false → breaksDuty s s.nextPins = false →
    decodeWord s.cmdWord = i →
    step s = exec i { s with pins := s.pins.tail, offer := s.offer.after s.nextPins }

/-- The host's placement (log 13): the step after `withFetchWord` of a command's word runs that command, on the same architectural
state, and leaves the host's remaining input as it was. -/
def Obligations.PlacedWordRunsNext : Prop :=
  ∀ (s : State) (i : Instr), i.wf = true →
    decodeTableWord 72 (encodeWord i).toNat = some i ∧
    ∃ u t, u.arch = s.arch ∧ exec i u = .next t ∧ step (s.withFetchWord 72 (encodeWord i).toNat) = .next t ∧
      t.pins = s.pins ∧ t.offer = s.offer

/-- R112: an edge at which `rst = 0`, `cmd_valid = 1` and `cmd_ready = 1` captures the fields, sets BUSY and writes no architectural
register; `cmd_ready` falls, and the inputs are free. -/
def Obligations.AcceptanceCapturesTheCommand : Prop :=
  ∀ s : State, s.nextPins.rst = false → s.nextPins.cmdValid = true → cmdReady s s.nextPins = true →
    breaksDuty s s.nextPins = false →
    ∃ t, step s = .next t ∧ t.cmdOp = s.nextPins.cmdOp ∧ t.cmdIdx = s.nextPins.cmdIdx ∧ t.cmdData = s.nextPins.cmdData ∧
      t.busy = true ∧ (∀ p, cmdReady t p = false) ∧ t.arch = s.arch ∧ t.offer = .leftHigh ∧ t.rspValid = false

/-- R113: at a completion edge the captured command's writes, the response, RSP_VALID and BUSY all change at once, to what
`Exec(σ, w)` of R120 gives. -/
def Obligations.CompletionEdgeCommitsAtOnce : Prop :=
  ∀ s : State, s.busy = true → s.latLeft ≤ 1 → s.nextPins.rst = false → breaksDuty s s.nextPins = false →
    ∃ t, step s = .next t ∧ t.arch = s.arch.exec s.cmdWord ∧ t.rspValid = true ∧ t.busy = false

/-- R18, R19, R17, R16, R54: KV, KS, RSP_STATUS and RSP_DATA change only at a reset edge or at a completion edge. R112, R113: an edge
at which the command in flight goes on keeps its captured fields whatever the pins raise, and counts one edge off. What
counts there as a raised word, to be held from then on, and that `cmd_valid` left at 1 since the acceptance is none, so that the
inputs stay free, is the model's reading of R112 (log 21). -/
def Obligations.ArchitecturalStateHoldsBetweenCompletions : Prop :=
  (∀ s t : State, step s = .next t → s.nextPins.rst = false → s.completesNext = false → t.arch = s.arch) ∧
  (∀ s : State, s.busy = true → 1 < s.latLeft → s.nextPins.rst = false → breaksDuty s s.nextPins = false →
    ∃ t, step s = .next t ∧ t.busy = true ∧ t.rspValid = false ∧ t.arch = s.arch ∧ t.cmdOp = s.cmdOp ∧ t.cmdIdx = s.cmdIdx ∧
      t.cmdData = s.cmdData ∧ t.latLeft = s.latLeft - 1 ∧ t.pins = s.pins.tail ∧
      (s.nextPins.cmdValid = false → t.offer = .nothing) ∧
      (s.nextPins.cmdValid = true → s.offer = .leftHigh → t.offer = .leftHigh) ∧
      (s.nextPins.cmdValid = true → s.offer ≠ .leftHigh → t.offer = .standing s.nextPins.word))

/-- R17: KV is 1 after an edge exactly when no reset is sampled and it was 1 already or a KEYGEN completes. -/
def Obligations.KeyValidIsSetOnlyByKeygen : Prop :=
  ∀ s t : State, step s = .next t →
    (t.kv = true ↔ s.nextPins.rst = false ∧ (s.kv = true ∨ (s.completesNext = true ∧ s.cmdOp = 0b000#3)))

/-- R20: BUSY is 1 after an edge exactly when no reset is sampled and either a command is accepted at it or one was in flight and does
not complete at it; `cmd_ready` is `¬BUSY ∧ ¬rst`; the reset value is 0. -/
def Obligations.BusyRisesAtAcceptanceAndFallsAtCompletion : Prop :=
  (∀ s t : State, step s = .next t →
    (t.busy = true ↔ s.nextPins.rst = false ∧
      (accepts s s.nextPins = true ∨ (s.busy = true ∧ s.completesNext = false)))) ∧
  (∀ (s : State) (p : Pins), (s.outputs p).cmdReady = (!s.busy && !p.rst)) ∧
  State.reset.busy = false

/-- R21: RSP_VALID is 1 after an edge exactly when that edge completes a command, and is 0 again after the edge that follows; it
drives `rsp_valid`; the reset value is 0. -/
def Obligations.ResponseValidLastsOneCycle : Prop :=
  (∀ s t : State, step s = .next t → (t.rspValid = true ↔ s.completesNext = true)) ∧
  (∀ s t u : State, step s = .next t → step t = .next u → t.rspValid = true → u.rspValid = false) ∧
  (∀ (s : State) (p : Pins), (s.outputs p).rspValid = s.rspValid) ∧
  State.reset.rspValid = false

/-- R114: in the cycle after a completion the core is ready, and a command raised there (held, if it was raised before) is accepted at
the very next edge. -/
def Obligations.NextCommandIsAcceptedRightAfterCompletion : Prop :=
  ∀ s t : State, step s = .next t → s.completesNext = true →
    t.nextPins.rst = false → t.nextPins.cmdValid = true → breaksDuty t t.nextPins = false →
    cmdReady t t.nextPins = true ∧ t.rspValid = true ∧
    ∃ u, step t = .next u ∧ u.busy = true ∧ u.cmdWord = t.nextPins.word

/-- R106: with no command in flight and none raised, all state is held, but for RSP_VALID, whose one cycle is over (R21), and
the model's own record of the pins. -/
def Obligations.IdleCoreHoldsItsState : Prop :=
  ∀ s : State, s.busy = false → (∀ w, s.offer ≠ .standing w) → s.nextPins.rst = false → s.nextPins.cmdValid = false →
    step s = .next { s with rspValid := false, offer := .nothing, pins := s.pins.tail }

/-- R112, R118, U4, as the model takes them (log 8, log 9): the one thing that stops the core is a host that drops or changes a word
it has raised and the core has not accepted; the step then refuses by name, and never otherwise. After every edge,
one with BUSY = 1 and a reset edge too, a word raised there or before and not accepted stands; after an acceptance nothing stands, and
the inputs are free, until `cmd_valid` has been 0 and is raised anew (log 21). -/
def Obligations.StepStopsOnlyOnABrokenHostDuty : Prop :=
  ∀ s : State,
    (∀ r, step s = .refused r ↔
      r = .hostBrokeDuty ∧ s.nextPins.rst = false ∧ ∃ w, s.offer = .standing w ∧ s.nextPins.raised ≠ some w) ∧
    (∀ f, step s ≠ .fault f) ∧
    (∀ t, step s = .next t →
      (s.nextPins.cmdValid = false → t.offer = .nothing) ∧
      (accepts s s.nextPins = true → t.offer = .leftHigh) ∧
      (s.nextPins.cmdValid = true → accepts s s.nextPins = false →
        (s.offer = .leftHigh → t.offer = .leftHigh) ∧ (s.offer ≠ .leftHigh → t.offer = .standing s.nextPins.word)))

/-- R28, R93, R96, R20, R21: the reset state meets the invariant. -/
def Obligations.ResetStateMeetsTheInvariant : Prop := State.reset.Inv

/-- R28 and R93, R96, R20, R21, R25: every step keeps the invariant: with KV = 1, KS is a key schedule; the status is a legal code, an
error's data is 0, a NO_KEY stands only while KV = 0; a command in flight has an edge left, no response signalled and RC in range. -/
def Obligations.EveryStepKeepsTheInvariant : Prop :=
  ∀ s t : State, s.Inv → step s = .next t → t.Inv

/-- R112 and R113 together, whatever the latencies are: a word shown to an idle core (raised there, held there, or shown with
`cmd_valid` left at 1) and, after acceptance, a host that asserts no reset and changes the inputs as it likes, but holds the next word
once it has raised `cmd_valid` anew (log 21).
After exactly 1 + LAT edges the state is `Exec(σ, w)`, RSP_VALID is up and BUSY down, with that one response in the run; after every
earlier edge the command is in flight, no response is signalled and the architectural state is untouched. LAT is the row of R115 that
R113 names: which row is settled at acceptance (log 14). -/
def Obligations.AcceptedCommandIsOneTransaction : Prop :=
  (∀ (s : State) (w : CmdWord) (ps rest : List Pins), s.busy = false → (∀ v, s.offer = .standing v → v = w) →
    ps.length = latency (decodeWord w) s.kv → keepsDuty .leftHigh ps = true → s.pins = Pins.raising w :: ps ++ rest →
    (∃ t, Host.Core.run Sys2Proof.core (1 + ps.length) s = .next t ∧
      t.arch = s.arch.exec w ∧ t.rspValid = true ∧ t.busy = false ∧ t.pins = rest ∧ t.offer = Offer.leftHigh.afterAll ps ∧
      clockResponses (1 + ps.length) s = [t.response]) ∧
    (∀ k, k < ps.length →
      ∃ t, Host.Core.run Sys2Proof.core (1 + k) s = .next t ∧ t.arch = s.arch ∧ t.rspValid = false ∧ t.busy = true ∧
        t.cmdWord = w ∧ t.latLeft = ps.length - k ∧ t.offer = Offer.leftHigh.afterAll (ps.take k) ∧
        t.pins = ps.drop k ++ rest)) ∧
  (∀ (op : BitVec 3) (idx : BitVec 4) (data : Block) (kv : Bool),
    latency (.keygen idx data) kv = Config.latKeygen ∧
    latency (.encrypt idx data) true = Config.latXform ∧ latency (.decrypt idx data) true = Config.latXform ∧
    latency (.rdkey idx data) true = Config.latRdkey ∧
    latency (.encrypt idx data) false = Config.latErr ∧ latency (.decrypt idx data) false = Config.latErr ∧
    latency (.rdkey idx data) false = Config.latErr ∧ latency (.illegal op idx data) kv = Config.latErr) ∧
  1 ≤ Config.latKeygen ∧ 1 ≤ Config.latXform ∧ 1 ≤ Config.latRdkey ∧ 1 ≤ Config.latErr

/-- R109, R119: a command accepted and then reset at any edge before or at its completion edge gives no response, and leaves what a
reset leaves, whatever the host drives meanwhile and at the reset edge (a word raised there stands, log 9). -/
def Obligations.ResetAbortsTheCommandInFlight : Prop :=
  ∀ (s : State) (w : CmdWord) (ps : List Pins) (r : Pins) (rest : List Pins), s.busy = false →
    (∀ v, s.offer = .standing v → v = w) → ps.length < latency (decodeWord w) s.kv → keepsDuty .leftHigh ps = true → r.rst = true →
    s.pins = Pins.raising w :: ps ++ r :: rest →
    (∃ t, Host.Core.run Sys2Proof.core (ps.length + 2) s = .next t ∧ t.arch.SameToHost s.resetRegisters.arch ∧
      t.busy = false ∧ t.rspValid = false ∧ t.pins = rest ∧
      t.offer = (Offer.leftHigh.afterAll ps).after r) ∧
    clockResponses (ps.length + 2) s = []

/-- R56, R113, R120, for every run of the clock from every state, whatever the host drives: the responses RSP_VALID signals are those
of the run at the transaction level whose moves are the resets and the completed commands, in order, and the two end in states the
host cannot tell apart. -/
def Obligations.ClockRunsAreTransactionRuns : Prop :=
  ∀ (n : Nat) (s t : State), Host.Core.run Sys2Proof.core n s = .next t →
    clockResponses n s = responses (clockMoves n s) s ∧
    t.arch.SameToHost (afterMoves (clockMoves n s) s).arch

/-- The converse: every run at the transaction level is a run of the clock, for some host input that keeps the duty: the same moves in
the same order, an aborted command read as the reset that aborts it (R109), the same responses, and a state the host cannot tell apart,
with no command in flight. -/
def Obligations.TransactionRunsAreClockRuns : Prop :=
  ∀ (ms : List Move) (s : State), s.busy = false → (∀ w, s.offer ≠ .standing w) →
    ∃ (ps : List Pins) (t : State),
      Host.Core.run Sys2Proof.core ps.length { s with pins := ps } = .next t ∧ t.busy = false ∧ (∀ w, t.offer ≠ .standing w) ∧
      clockMoves ps.length { s with pins := ps } = ms.map Move.atClock ∧
      clockResponses ps.length { s with pins := ps } = responses ms s ∧
      t.arch.SameToHost (afterMoves ms s).arch
end

