-- ==== Sys2Proof/Laws/Bits.lean ====
section
/-! SUPPORT. What the bit-level primitives do, bit by bit: cited instead of unfolding them. -/

namespace Sys2Proof.Machine

/-- Two Bit Blocks with the same positions are equal. -/
theorem eq_of_pos_eq {n : Nat} {x y : BitVec n} (h : ∀ p, 1 ≤ p → p ≤ n → pos x p = pos y p) : x = y := by
  apply BitVec.eq_of_getMsbD_eq
  intro i hi
  simpa [pos] using h (i + 1) (by omega) (by omega)

theorem pos_xor {n : Nat} (x y : BitVec n) (p : Nat) : pos (x ^^^ y) p = (pos x p ^^ pos y p) := by
  simp [pos]

/-- Complementing a block complements each of its positions. -/
theorem pos_not {n : Nat} (x : BitVec n) {p : Nat} (h1 : 1 ≤ p) (hn : p ≤ n) : pos (~~~x) p = !pos x p := by
  simp [pos, BitVec.getMsbD_not]
  omega

/-- A bit of a permuted block, counted from 0 at the most significant end. -/
theorem getMsbD_permute {n m : Nat} (table : List Nat) (x : BitVec n) (hlen : table.length = m) (k : Nat) :
    (permute m table x).getMsbD k = ((table.map (pos x)).getD k false) := by
  subst hlen
  simp [permute, BitVec.getMsbD_setWidth, BitVec.getMsbD_ofBoolListBE]

/-- A permutation of an exclusive-or is the exclusive-or of the permutations. -/
theorem permute_xor {n m : Nat} (table : List Nat) (x y : BitVec n) (hlen : table.length = m) :
    permute m table (x ^^^ y) = permute m table x ^^^ permute m table y := by
  apply BitVec.eq_of_getMsbD_eq
  intro i hi
  simp only [BitVec.getMsbD_xor, getMsbD_permute table _ hlen]
  simp [hlen, hi, pos_xor]

/-- A bit of a rotated half, counted from 0 at the most significant end. -/
theorem getMsbD_rotl28 (v : HalfKey) {s : Nat} (h1 : 1 ≤ s) (h2 : s ≤ 27) {k : Nat} (hk : k < 28) :
    (rotl28 v s).getMsbD k = v.getMsbD ((k + s) % 28) := by
  simp only [rotl28, BitVec.getMsbD_or, BitVec.getMsbD_shiftLeft, BitVec.getMsbD_ushiftRight]
  by_cases h : k + s < 28
  · have hlt : k < 28 - s := by omega
    rw [Nat.mod_eq_of_lt h]
    simp [hlt]
  · have hm : (k + s) % 28 = k - (28 - s) := by omega
    have hge : ¬ k < 28 - s := by omega
    have hz : v.getMsbD (k + s) = false := by
      rw [BitVec.getMsbD_eq_getLsbD]; simp; omega
    simp [hm, hge, hz, hk]

/-- `RomRead` form of R9: position `k` of a permuted block is the position the table names. -/
theorem pos_permute {n m : Nat} (table : List Nat) (x : BitVec n) (hlen : table.length = m) {k : Nat} (h1 : 1 ≤ k) (hm : k ≤ m) :
    pos (permute m table x) k = pos x (table.getD (k - 1) 0) := by
  have hk : k - 1 < table.length := by omega
  simp only [pos, getMsbD_permute table x hlen]
  rw [List.getD_eq_getElem _ _ (by simpa using hk), List.getD_eq_getElem _ _ hk]
  simp [pos]

/-- Positions of a concatenation (R8): the first `m` are those of the first part. -/
theorem pos_append {m n : Nat} (x : BitVec m) (y : BitVec n) {p : Nat} (h1 : 1 ≤ p) :
    pos (x ++ y) p = if p ≤ m then pos x p else pos y (p - m) := by
  simp only [pos, BitVec.getMsbD_append]
  by_cases h : p ≤ m
  · simp [h, show ¬ m ≤ p - 1 by omega]
  · simp [h, show m ≤ p - 1 by omega, show p - 1 - m = p - m - 1 by omega]

/-- Positions of `C ‖ D`. -/
theorem pos_append_key (c d : HalfKey) {p : Nat} (h1 : 1 ≤ p) :
    pos (c ++ d : KeyPair) p = if p ≤ 28 then pos c p else pos d (p - 28) := pos_append c d h1

/-- Positions of a block from its halves. -/
theorem pos_append_block (l r : Half) {p : Nat} (h1 : 1 ≤ p) :
    pos (l ++ r : Block) p = if p ≤ 32 then pos l p else pos r (p - 32) := pos_append l r h1

/-- A block is its halves joined again. -/
theorem join_halves (x : Block) : (x.extractLsb' 32 32 ++ x.extractLsb' 0 32 : Block) = x := by
  apply BitVec.eq_of_getLsbD_eq
  intro i hi
  simp only [BitVec.getLsbD_append, BitVec.getLsbD_extractLsb']
  by_cases h : i < 32
  · simp [h]
  · simp [h, show i - 32 < 32 by omega, show 32 + (i - 32) = i by omega]

/-- The high half of joined halves. -/
theorem high_half_join (l r : Half) : (l ++ r : Block).extractLsb' 32 32 = l := by
  apply BitVec.eq_of_getLsbD_eq
  intro i hi
  simp only [BitVec.getLsbD_append, BitVec.getLsbD_extractLsb']
  simp [hi]

/-- The low half of joined halves. -/
theorem low_half_join (l r : Half) : (l ++ r : Block).extractLsb' 0 32 = r := by
  apply BitVec.eq_of_getLsbD_eq
  intro i hi
  simp only [BitVec.getLsbD_append, BitVec.getLsbD_extractLsb']
  simp [hi]

end Sys2Proof.Machine
end

