-- ==== Sys2Proof/Laws/State.lean ====
section
/-! SUPPORT. One lemma for each field after each update of State, true by unfolding the update, for simp: no later proof unfolds
a record update. A lemma says what the update leaves in the field: the new value, or the old one. -/

namespace Sys2Proof.Machine.State

variable (s : State)

/-! `runWorking` -/

@[simp] theorem runWorking_kv : (s.runWorking).kv = s.kv := rfl
@[simp] theorem runWorking_ks : (s.runWorking).ks = s.ks := rfl
@[simp] theorem runWorking_rspStatus : (s.runWorking).rspStatus = s.rspStatus := rfl
@[simp] theorem runWorking_rspData : (s.runWorking).rspData = s.rspData := rfl
@[simp] theorem runWorking_busy : (s.runWorking).busy = s.busy := rfl
@[simp] theorem runWorking_rspValid : (s.runWorking).rspValid = s.rspValid := rfl
@[simp] theorem runWorking_cmdOp : (s.runWorking).cmdOp = s.cmdOp := rfl
@[simp] theorem runWorking_cmdIdx : (s.runWorking).cmdIdx = s.cmdIdx := rfl
@[simp] theorem runWorking_cmdData : (s.runWorking).cmdData = s.cmdData := rfl
@[simp] theorem runWorking_workC : (s.runWorking).workC = Config.freeC s.draws := rfl
@[simp] theorem runWorking_workD : (s.runWorking).workD = Config.freeD s.draws := rfl
@[simp] theorem runWorking_workL : (s.runWorking).workL = Config.freeL s.draws := rfl
@[simp] theorem runWorking_workR : (s.runWorking).workR = Config.freeR s.draws := rfl
@[simp] theorem runWorking_workRC : (s.runWorking).workRC = BitVec.ofNat 5 (Config.freeRounds s.draws % 17) := rfl
@[simp] theorem runWorking_latLeft : (s.runWorking).latLeft = s.latLeft := rfl
@[simp] theorem runWorking_offer : (s.runWorking).offer = s.offer := rfl
@[simp] theorem runWorking_pins : (s.runWorking).pins = s.pins := rfl
@[simp] theorem runWorking_draws : (s.runWorking).draws = s.draws + 1 := rfl

/-! `forgetWorking` -/

@[simp] theorem forgetWorking_kv : (s.forgetWorking).kv = s.kv := rfl
@[simp] theorem forgetWorking_ks : (s.forgetWorking).ks = s.ks := rfl
@[simp] theorem forgetWorking_rspStatus : (s.forgetWorking).rspStatus = s.rspStatus := rfl
@[simp] theorem forgetWorking_rspData : (s.forgetWorking).rspData = s.rspData := rfl
@[simp] theorem forgetWorking_busy : (s.forgetWorking).busy = s.busy := rfl
@[simp] theorem forgetWorking_rspValid : (s.forgetWorking).rspValid = s.rspValid := rfl
@[simp] theorem forgetWorking_cmdOp : (s.forgetWorking).cmdOp = Config.freeCmdOp s.draws := rfl
@[simp] theorem forgetWorking_cmdIdx : (s.forgetWorking).cmdIdx = Config.freeCmdIdx s.draws := rfl
@[simp] theorem forgetWorking_cmdData : (s.forgetWorking).cmdData = Config.freeCmdData s.draws := rfl
@[simp] theorem forgetWorking_workC : (s.forgetWorking).workC = Config.freeC s.draws := rfl
@[simp] theorem forgetWorking_workD : (s.forgetWorking).workD = Config.freeD s.draws := rfl
@[simp] theorem forgetWorking_workL : (s.forgetWorking).workL = Config.freeL s.draws := rfl
@[simp] theorem forgetWorking_workR : (s.forgetWorking).workR = Config.freeR s.draws := rfl
@[simp] theorem forgetWorking_workRC : (s.forgetWorking).workRC = Config.freeRC s.draws := rfl
@[simp] theorem forgetWorking_latLeft : (s.forgetWorking).latLeft = s.latLeft := rfl
@[simp] theorem forgetWorking_offer : (s.forgetWorking).offer = s.offer := rfl
@[simp] theorem forgetWorking_pins : (s.forgetWorking).pins = s.pins := rfl
@[simp] theorem forgetWorking_draws : (s.forgetWorking).draws = s.draws + 1 := rfl

/-! `setResponse` -/

@[simp] theorem setResponse_kv (status : BitVec 2) (data : Block) : (s.setResponse status data).kv = s.kv := rfl
@[simp] theorem setResponse_ks (status : BitVec 2) (data : Block) : (s.setResponse status data).ks = s.ks := rfl
@[simp] theorem setResponse_rspStatus (status : BitVec 2) (data : Block) : (s.setResponse status data).rspStatus = status := rfl
@[simp] theorem setResponse_rspData (status : BitVec 2) (data : Block) : (s.setResponse status data).rspData = data := rfl
@[simp] theorem setResponse_busy (status : BitVec 2) (data : Block) : (s.setResponse status data).busy = s.busy := rfl
@[simp] theorem setResponse_rspValid (status : BitVec 2) (data : Block) : (s.setResponse status data).rspValid = s.rspValid := rfl
@[simp] theorem setResponse_cmdOp (status : BitVec 2) (data : Block) : (s.setResponse status data).cmdOp = s.cmdOp := rfl
@[simp] theorem setResponse_cmdIdx (status : BitVec 2) (data : Block) : (s.setResponse status data).cmdIdx = s.cmdIdx := rfl
@[simp] theorem setResponse_cmdData (status : BitVec 2) (data : Block) : (s.setResponse status data).cmdData = s.cmdData := rfl
@[simp] theorem setResponse_workC (status : BitVec 2) (data : Block) : (s.setResponse status data).workC = s.workC := rfl
@[simp] theorem setResponse_workD (status : BitVec 2) (data : Block) : (s.setResponse status data).workD = s.workD := rfl
@[simp] theorem setResponse_workL (status : BitVec 2) (data : Block) : (s.setResponse status data).workL = s.workL := rfl
@[simp] theorem setResponse_workR (status : BitVec 2) (data : Block) : (s.setResponse status data).workR = s.workR := rfl
@[simp] theorem setResponse_workRC (status : BitVec 2) (data : Block) : (s.setResponse status data).workRC = s.workRC := rfl
@[simp] theorem setResponse_latLeft (status : BitVec 2) (data : Block) : (s.setResponse status data).latLeft = s.latLeft := rfl
@[simp] theorem setResponse_offer (status : BitVec 2) (data : Block) : (s.setResponse status data).offer = s.offer := rfl
@[simp] theorem setResponse_pins (status : BitVec 2) (data : Block) : (s.setResponse status data).pins = s.pins := rfl
@[simp] theorem setResponse_draws (status : BitVec 2) (data : Block) : (s.setResponse status data).draws = s.draws := rfl

/-! `signalCompletion` -/

@[simp] theorem signalCompletion_kv : (s.signalCompletion).kv = s.kv := rfl
@[simp] theorem signalCompletion_ks : (s.signalCompletion).ks = s.ks := rfl
@[simp] theorem signalCompletion_rspStatus : (s.signalCompletion).rspStatus = s.rspStatus := rfl
@[simp] theorem signalCompletion_rspData : (s.signalCompletion).rspData = s.rspData := rfl
@[simp] theorem signalCompletion_busy : (s.signalCompletion).busy = false := rfl
@[simp] theorem signalCompletion_rspValid : (s.signalCompletion).rspValid = true := rfl
@[simp] theorem signalCompletion_cmdOp : (s.signalCompletion).cmdOp = s.cmdOp := rfl
@[simp] theorem signalCompletion_cmdIdx : (s.signalCompletion).cmdIdx = s.cmdIdx := rfl
@[simp] theorem signalCompletion_cmdData : (s.signalCompletion).cmdData = s.cmdData := rfl
@[simp] theorem signalCompletion_workC : (s.signalCompletion).workC = s.workC := rfl
@[simp] theorem signalCompletion_workD : (s.signalCompletion).workD = s.workD := rfl
@[simp] theorem signalCompletion_workL : (s.signalCompletion).workL = s.workL := rfl
@[simp] theorem signalCompletion_workR : (s.signalCompletion).workR = s.workR := rfl
@[simp] theorem signalCompletion_workRC : (s.signalCompletion).workRC = s.workRC := rfl
@[simp] theorem signalCompletion_latLeft : (s.signalCompletion).latLeft = 0 := rfl
@[simp] theorem signalCompletion_offer : (s.signalCompletion).offer = s.offer := rfl
@[simp] theorem signalCompletion_pins : (s.signalCompletion).pins = s.pins := rfl
@[simp] theorem signalCompletion_draws : (s.signalCompletion).draws = s.draws := rfl

/-! `answered` -/

@[simp] theorem answered_kv (status : BitVec 2) (data : Block) : (s.answered status data).kv = s.kv := rfl
@[simp] theorem answered_ks (status : BitVec 2) (data : Block) : (s.answered status data).ks = s.ks := rfl
@[simp] theorem answered_rspStatus (status : BitVec 2) (data : Block) : (s.answered status data).rspStatus = status := rfl
@[simp] theorem answered_rspData (status : BitVec 2) (data : Block) : (s.answered status data).rspData = data := rfl
@[simp] theorem answered_busy (status : BitVec 2) (data : Block) : (s.answered status data).busy = false := rfl
@[simp] theorem answered_rspValid (status : BitVec 2) (data : Block) : (s.answered status data).rspValid = true := rfl
@[simp] theorem answered_cmdOp (status : BitVec 2) (data : Block) : (s.answered status data).cmdOp = Config.freeCmdOp s.draws := rfl
@[simp] theorem answered_cmdIdx (status : BitVec 2) (data : Block) : (s.answered status data).cmdIdx = Config.freeCmdIdx s.draws := rfl
@[simp] theorem answered_cmdData (status : BitVec 2) (data : Block) : (s.answered status data).cmdData = Config.freeCmdData s.draws := rfl
@[simp] theorem answered_workC (status : BitVec 2) (data : Block) : (s.answered status data).workC = Config.freeC s.draws := rfl
@[simp] theorem answered_workD (status : BitVec 2) (data : Block) : (s.answered status data).workD = Config.freeD s.draws := rfl
@[simp] theorem answered_workL (status : BitVec 2) (data : Block) : (s.answered status data).workL = Config.freeL s.draws := rfl
@[simp] theorem answered_workR (status : BitVec 2) (data : Block) : (s.answered status data).workR = Config.freeR s.draws := rfl
@[simp] theorem answered_workRC (status : BitVec 2) (data : Block) : (s.answered status data).workRC = Config.freeRC s.draws := rfl
@[simp] theorem answered_latLeft (status : BitVec 2) (data : Block) : (s.answered status data).latLeft = 0 := rfl
@[simp] theorem answered_offer (status : BitVec 2) (data : Block) : (s.answered status data).offer = s.offer := rfl
@[simp] theorem answered_pins (status : BitVec 2) (data : Block) : (s.answered status data).pins = s.pins := rfl
@[simp] theorem answered_draws (status : BitVec 2) (data : Block) : (s.answered status data).draws = s.draws + 1 := rfl

/-! `resetRegisters` -/

@[simp] theorem resetRegisters_kv : (s.resetRegisters).kv = false := rfl
@[simp] theorem resetRegisters_ks : (s.resetRegisters).ks = freeStore s.draws := rfl
@[simp] theorem resetRegisters_rspStatus : (s.resetRegisters).rspStatus = statusOk := rfl
@[simp] theorem resetRegisters_rspData : (s.resetRegisters).rspData = 0 := rfl
@[simp] theorem resetRegisters_busy : (s.resetRegisters).busy = false := rfl
@[simp] theorem resetRegisters_rspValid : (s.resetRegisters).rspValid = false := rfl
@[simp] theorem resetRegisters_cmdOp : (s.resetRegisters).cmdOp = Config.freeCmdOp s.draws := rfl
@[simp] theorem resetRegisters_cmdIdx : (s.resetRegisters).cmdIdx = Config.freeCmdIdx s.draws := rfl
@[simp] theorem resetRegisters_cmdData : (s.resetRegisters).cmdData = Config.freeCmdData s.draws := rfl
@[simp] theorem resetRegisters_workC : (s.resetRegisters).workC = Config.freeC s.draws := rfl
@[simp] theorem resetRegisters_workD : (s.resetRegisters).workD = Config.freeD s.draws := rfl
@[simp] theorem resetRegisters_workL : (s.resetRegisters).workL = Config.freeL s.draws := rfl
@[simp] theorem resetRegisters_workR : (s.resetRegisters).workR = Config.freeR s.draws := rfl
@[simp] theorem resetRegisters_workRC : (s.resetRegisters).workRC = Config.freeRC s.draws := rfl
@[simp] theorem resetRegisters_latLeft : (s.resetRegisters).latLeft = 0 := rfl
@[simp] theorem resetRegisters_offer : (s.resetRegisters).offer = s.offer := rfl
@[simp] theorem resetRegisters_pins : (s.resetRegisters).pins = s.pins := rfl
@[simp] theorem resetRegisters_draws : (s.resetRegisters).draws = s.draws + 1 := rfl

/-! `loadKeys` -/

@[simp] theorem loadKeys_kv (keys : KeyStore) : (s.loadKeys keys).kv = true := rfl
@[simp] theorem loadKeys_ks (keys : KeyStore) : (s.loadKeys keys).ks = keys := rfl
@[simp] theorem loadKeys_rspStatus (keys : KeyStore) : (s.loadKeys keys).rspStatus = s.rspStatus := rfl
@[simp] theorem loadKeys_rspData (keys : KeyStore) : (s.loadKeys keys).rspData = s.rspData := rfl
@[simp] theorem loadKeys_busy (keys : KeyStore) : (s.loadKeys keys).busy = s.busy := rfl
@[simp] theorem loadKeys_rspValid (keys : KeyStore) : (s.loadKeys keys).rspValid = s.rspValid := rfl
@[simp] theorem loadKeys_cmdOp (keys : KeyStore) : (s.loadKeys keys).cmdOp = s.cmdOp := rfl
@[simp] theorem loadKeys_cmdIdx (keys : KeyStore) : (s.loadKeys keys).cmdIdx = s.cmdIdx := rfl
@[simp] theorem loadKeys_cmdData (keys : KeyStore) : (s.loadKeys keys).cmdData = s.cmdData := rfl
@[simp] theorem loadKeys_workC (keys : KeyStore) : (s.loadKeys keys).workC = s.workC := rfl
@[simp] theorem loadKeys_workD (keys : KeyStore) : (s.loadKeys keys).workD = s.workD := rfl
@[simp] theorem loadKeys_workL (keys : KeyStore) : (s.loadKeys keys).workL = s.workL := rfl
@[simp] theorem loadKeys_workR (keys : KeyStore) : (s.loadKeys keys).workR = s.workR := rfl
@[simp] theorem loadKeys_workRC (keys : KeyStore) : (s.loadKeys keys).workRC = s.workRC := rfl
@[simp] theorem loadKeys_latLeft (keys : KeyStore) : (s.loadKeys keys).latLeft = s.latLeft := rfl
@[simp] theorem loadKeys_offer (keys : KeyStore) : (s.loadKeys keys).offer = s.offer := rfl
@[simp] theorem loadKeys_pins (keys : KeyStore) : (s.loadKeys keys).pins = s.pins := rfl
@[simp] theorem loadKeys_draws (keys : KeyStore) : (s.loadKeys keys).draws = s.draws := rfl

/-! `dropPins` -/

@[simp] theorem dropPins_kv : (s.dropPins).kv = s.kv := rfl
@[simp] theorem dropPins_ks : (s.dropPins).ks = s.ks := rfl
@[simp] theorem dropPins_rspStatus : (s.dropPins).rspStatus = s.rspStatus := rfl
@[simp] theorem dropPins_rspData : (s.dropPins).rspData = s.rspData := rfl
@[simp] theorem dropPins_busy : (s.dropPins).busy = s.busy := rfl
@[simp] theorem dropPins_rspValid : (s.dropPins).rspValid = s.rspValid := rfl
@[simp] theorem dropPins_cmdOp : (s.dropPins).cmdOp = s.cmdOp := rfl
@[simp] theorem dropPins_cmdIdx : (s.dropPins).cmdIdx = s.cmdIdx := rfl
@[simp] theorem dropPins_cmdData : (s.dropPins).cmdData = s.cmdData := rfl
@[simp] theorem dropPins_workC : (s.dropPins).workC = s.workC := rfl
@[simp] theorem dropPins_workD : (s.dropPins).workD = s.workD := rfl
@[simp] theorem dropPins_workL : (s.dropPins).workL = s.workL := rfl
@[simp] theorem dropPins_workR : (s.dropPins).workR = s.workR := rfl
@[simp] theorem dropPins_workRC : (s.dropPins).workRC = s.workRC := rfl
@[simp] theorem dropPins_latLeft : (s.dropPins).latLeft = s.latLeft := rfl
@[simp] theorem dropPins_offer : (s.dropPins).offer = s.offer := rfl
@[simp] theorem dropPins_pins : (s.dropPins).pins = s.pins.tail := rfl
@[simp] theorem dropPins_draws : (s.dropPins).draws = s.draws := rfl

/-! `capture` -/

@[simp] theorem capture_kv (p : Pins) : (s.capture p).kv = s.kv := rfl
@[simp] theorem capture_ks (p : Pins) : (s.capture p).ks = s.ks := rfl
@[simp] theorem capture_rspStatus (p : Pins) : (s.capture p).rspStatus = s.rspStatus := rfl
@[simp] theorem capture_rspData (p : Pins) : (s.capture p).rspData = s.rspData := rfl
@[simp] theorem capture_busy (p : Pins) : (s.capture p).busy = s.busy := rfl
@[simp] theorem capture_rspValid (p : Pins) : (s.capture p).rspValid = s.rspValid := rfl
@[simp] theorem capture_cmdOp (p : Pins) : (s.capture p).cmdOp = p.cmdOp := rfl
@[simp] theorem capture_cmdIdx (p : Pins) : (s.capture p).cmdIdx = p.cmdIdx := rfl
@[simp] theorem capture_cmdData (p : Pins) : (s.capture p).cmdData = p.cmdData := rfl
@[simp] theorem capture_workC (p : Pins) : (s.capture p).workC = s.workC := rfl
@[simp] theorem capture_workD (p : Pins) : (s.capture p).workD = s.workD := rfl
@[simp] theorem capture_workL (p : Pins) : (s.capture p).workL = s.workL := rfl
@[simp] theorem capture_workR (p : Pins) : (s.capture p).workR = s.workR := rfl
@[simp] theorem capture_workRC (p : Pins) : (s.capture p).workRC = s.workRC := rfl
@[simp] theorem capture_latLeft (p : Pins) : (s.capture p).latLeft = s.latLeft := rfl
@[simp] theorem capture_offer (p : Pins) : (s.capture p).offer = s.offer := rfl
@[simp] theorem capture_pins (p : Pins) : (s.capture p).pins = s.pins := rfl
@[simp] theorem capture_draws (p : Pins) : (s.capture p).draws = s.draws := rfl

/-! `acceptEdge` -/

@[simp] theorem acceptEdge_kv (p : Pins) : (s.acceptEdge p).kv = s.kv := rfl
@[simp] theorem acceptEdge_ks (p : Pins) : (s.acceptEdge p).ks = s.ks := rfl
@[simp] theorem acceptEdge_rspStatus (p : Pins) : (s.acceptEdge p).rspStatus = s.rspStatus := rfl
@[simp] theorem acceptEdge_rspData (p : Pins) : (s.acceptEdge p).rspData = s.rspData := rfl
@[simp] theorem acceptEdge_busy (p : Pins) : (s.acceptEdge p).busy = true := rfl
@[simp] theorem acceptEdge_rspValid (p : Pins) : (s.acceptEdge p).rspValid = false := rfl
@[simp] theorem acceptEdge_cmdOp (p : Pins) : (s.acceptEdge p).cmdOp = p.cmdOp := rfl
@[simp] theorem acceptEdge_cmdIdx (p : Pins) : (s.acceptEdge p).cmdIdx = p.cmdIdx := rfl
@[simp] theorem acceptEdge_cmdData (p : Pins) : (s.acceptEdge p).cmdData = p.cmdData := rfl
@[simp] theorem acceptEdge_workC (p : Pins) : (s.acceptEdge p).workC = Config.freeC s.draws := rfl
@[simp] theorem acceptEdge_workD (p : Pins) : (s.acceptEdge p).workD = Config.freeD s.draws := rfl
@[simp] theorem acceptEdge_workL (p : Pins) : (s.acceptEdge p).workL = Config.freeL s.draws := rfl
@[simp] theorem acceptEdge_workR (p : Pins) : (s.acceptEdge p).workR = Config.freeR s.draws := rfl
@[simp] theorem acceptEdge_workRC (p : Pins) : (s.acceptEdge p).workRC = BitVec.ofNat 5 (Config.freeRounds s.draws % 17) := rfl
@[simp] theorem acceptEdge_latLeft (p : Pins) : (s.acceptEdge p).latLeft = latency (decodeWord p.word) s.kv := rfl
@[simp] theorem acceptEdge_offer (p : Pins) : (s.acceptEdge p).offer = .leftHigh := rfl
@[simp] theorem acceptEdge_pins (p : Pins) : (s.acceptEdge p).pins = s.pins := rfl
@[simp] theorem acceptEdge_draws (p : Pins) : (s.acceptEdge p).draws = s.draws + 1 := rfl

/-! `waitEdge` -/

@[simp] theorem waitEdge_kv (p : Pins) : (s.waitEdge p).kv = s.kv := rfl
@[simp] theorem waitEdge_ks (p : Pins) : (s.waitEdge p).ks = s.ks := rfl
@[simp] theorem waitEdge_rspStatus (p : Pins) : (s.waitEdge p).rspStatus = s.rspStatus := rfl
@[simp] theorem waitEdge_rspData (p : Pins) : (s.waitEdge p).rspData = s.rspData := rfl
@[simp] theorem waitEdge_busy (p : Pins) : (s.waitEdge p).busy = s.busy := rfl
@[simp] theorem waitEdge_rspValid (p : Pins) : (s.waitEdge p).rspValid = false := rfl
@[simp] theorem waitEdge_cmdOp (p : Pins) : (s.waitEdge p).cmdOp = s.cmdOp := rfl
@[simp] theorem waitEdge_cmdIdx (p : Pins) : (s.waitEdge p).cmdIdx = s.cmdIdx := rfl
@[simp] theorem waitEdge_cmdData (p : Pins) : (s.waitEdge p).cmdData = s.cmdData := rfl
@[simp] theorem waitEdge_workC (p : Pins) : (s.waitEdge p).workC = Config.freeC s.draws := rfl
@[simp] theorem waitEdge_workD (p : Pins) : (s.waitEdge p).workD = Config.freeD s.draws := rfl
@[simp] theorem waitEdge_workL (p : Pins) : (s.waitEdge p).workL = Config.freeL s.draws := rfl
@[simp] theorem waitEdge_workR (p : Pins) : (s.waitEdge p).workR = Config.freeR s.draws := rfl
@[simp] theorem waitEdge_workRC (p : Pins) : (s.waitEdge p).workRC = BitVec.ofNat 5 (Config.freeRounds s.draws % 17) := rfl
@[simp] theorem waitEdge_latLeft (p : Pins) : (s.waitEdge p).latLeft = s.latLeft - 1 := rfl
@[simp] theorem waitEdge_offer (p : Pins) : (s.waitEdge p).offer = s.offer.after p := rfl
@[simp] theorem waitEdge_pins (p : Pins) : (s.waitEdge p).pins = s.pins := rfl
@[simp] theorem waitEdge_draws (p : Pins) : (s.waitEdge p).draws = s.draws + 1 := rfl

/-! `idleEdge` -/

@[simp] theorem idleEdge_kv : (s.idleEdge).kv = s.kv := rfl
@[simp] theorem idleEdge_ks : (s.idleEdge).ks = s.ks := rfl
@[simp] theorem idleEdge_rspStatus : (s.idleEdge).rspStatus = s.rspStatus := rfl
@[simp] theorem idleEdge_rspData : (s.idleEdge).rspData = s.rspData := rfl
@[simp] theorem idleEdge_busy : (s.idleEdge).busy = s.busy := rfl
@[simp] theorem idleEdge_rspValid : (s.idleEdge).rspValid = false := rfl
@[simp] theorem idleEdge_cmdOp : (s.idleEdge).cmdOp = s.cmdOp := rfl
@[simp] theorem idleEdge_cmdIdx : (s.idleEdge).cmdIdx = s.cmdIdx := rfl
@[simp] theorem idleEdge_cmdData : (s.idleEdge).cmdData = s.cmdData := rfl
@[simp] theorem idleEdge_workC : (s.idleEdge).workC = s.workC := rfl
@[simp] theorem idleEdge_workD : (s.idleEdge).workD = s.workD := rfl
@[simp] theorem idleEdge_workL : (s.idleEdge).workL = s.workL := rfl
@[simp] theorem idleEdge_workR : (s.idleEdge).workR = s.workR := rfl
@[simp] theorem idleEdge_workRC : (s.idleEdge).workRC = s.workRC := rfl
@[simp] theorem idleEdge_latLeft : (s.idleEdge).latLeft = s.latLeft := rfl
@[simp] theorem idleEdge_offer : (s.idleEdge).offer = .nothing := rfl
@[simp] theorem idleEdge_pins : (s.idleEdge).pins = s.pins := rfl
@[simp] theorem idleEdge_draws : (s.idleEdge).draws = s.draws := rfl

/-! `resetEdge` -/

@[simp] theorem resetEdge_kv (p : Pins) : (s.resetEdge p).kv = false := rfl
@[simp] theorem resetEdge_ks (p : Pins) : (s.resetEdge p).ks = freeStore s.draws := rfl
@[simp] theorem resetEdge_rspStatus (p : Pins) : (s.resetEdge p).rspStatus = statusOk := rfl
@[simp] theorem resetEdge_rspData (p : Pins) : (s.resetEdge p).rspData = 0 := rfl
@[simp] theorem resetEdge_busy (p : Pins) : (s.resetEdge p).busy = false := rfl
@[simp] theorem resetEdge_rspValid (p : Pins) : (s.resetEdge p).rspValid = false := rfl
@[simp] theorem resetEdge_cmdOp (p : Pins) : (s.resetEdge p).cmdOp = Config.freeCmdOp s.draws := rfl
@[simp] theorem resetEdge_cmdIdx (p : Pins) : (s.resetEdge p).cmdIdx = Config.freeCmdIdx s.draws := rfl
@[simp] theorem resetEdge_cmdData (p : Pins) : (s.resetEdge p).cmdData = Config.freeCmdData s.draws := rfl
@[simp] theorem resetEdge_workC (p : Pins) : (s.resetEdge p).workC = Config.freeC s.draws := rfl
@[simp] theorem resetEdge_workD (p : Pins) : (s.resetEdge p).workD = Config.freeD s.draws := rfl
@[simp] theorem resetEdge_workL (p : Pins) : (s.resetEdge p).workL = Config.freeL s.draws := rfl
@[simp] theorem resetEdge_workR (p : Pins) : (s.resetEdge p).workR = Config.freeR s.draws := rfl
@[simp] theorem resetEdge_workRC (p : Pins) : (s.resetEdge p).workRC = Config.freeRC s.draws := rfl
@[simp] theorem resetEdge_latLeft (p : Pins) : (s.resetEdge p).latLeft = 0 := rfl
@[simp] theorem resetEdge_offer (p : Pins) : (s.resetEdge p).offer = s.offer.after p := rfl
@[simp] theorem resetEdge_pins (p : Pins) : (s.resetEdge p).pins = s.pins := rfl
@[simp] theorem resetEdge_draws (p : Pins) : (s.resetEdge p).draws = s.draws + 1 := rfl

/-! `placeCommand` -/

@[simp] theorem placeCommand_kv (w : CmdWord) : (s.placeCommand w).kv = s.kv := rfl
@[simp] theorem placeCommand_ks (w : CmdWord) : (s.placeCommand w).ks = s.ks := rfl
@[simp] theorem placeCommand_rspStatus (w : CmdWord) : (s.placeCommand w).rspStatus = s.rspStatus := rfl
@[simp] theorem placeCommand_rspData (w : CmdWord) : (s.placeCommand w).rspData = s.rspData := rfl
@[simp] theorem placeCommand_busy (w : CmdWord) : (s.placeCommand w).busy = true := rfl
@[simp] theorem placeCommand_rspValid (w : CmdWord) : (s.placeCommand w).rspValid = false := rfl
@[simp] theorem placeCommand_cmdOp (w : CmdWord) : (s.placeCommand w).cmdOp = opField w := rfl
@[simp] theorem placeCommand_cmdIdx (w : CmdWord) : (s.placeCommand w).cmdIdx = idxField w := rfl
@[simp] theorem placeCommand_cmdData (w : CmdWord) : (s.placeCommand w).cmdData = dataField w := rfl
@[simp] theorem placeCommand_workC (w : CmdWord) : (s.placeCommand w).workC = s.workC := rfl
@[simp] theorem placeCommand_workD (w : CmdWord) : (s.placeCommand w).workD = s.workD := rfl
@[simp] theorem placeCommand_workL (w : CmdWord) : (s.placeCommand w).workL = s.workL := rfl
@[simp] theorem placeCommand_workR (w : CmdWord) : (s.placeCommand w).workR = s.workR := rfl
@[simp] theorem placeCommand_workRC (w : CmdWord) : (s.placeCommand w).workRC = s.workRC := rfl
@[simp] theorem placeCommand_latLeft (w : CmdWord) : (s.placeCommand w).latLeft = 1 := rfl
@[simp] theorem placeCommand_offer (w : CmdWord) : (s.placeCommand w).offer = s.offer := rfl
@[simp] theorem placeCommand_pins (w : CmdWord) : (s.placeCommand w).pins = Pins.holding s.offer :: s.pins := rfl
@[simp] theorem placeCommand_draws (w : CmdWord) : (s.placeCommand w).draws = s.draws := rfl

end Sys2Proof.Machine.State
end

