-- ==== Sys2Proof/Laws/Ops.lean ====
section
/-! SUPPORT. What the shared operations and the meanings answer, said once: later proofs cite these instead of unfolding. -/

namespace Sys2Proof.Machine

/-- A response ends the command in the answered state, and never stops. -/
theorem respond_eq (status : BitVec 2) (data : Block) (s : State) :
    respond status data s = .next (s.answered status data) := rfl

/-- An error is a response with data 0. -/
theorem raise_eq (code : BitVec 2) (s : State) : raise code s = .next (s.answered code 0) := rfl

/-- What `requireKey` does with KV = 1. -/
theorem requireKey_of_key {rest : State → Result} {s : State} (h : s.kv = true) : requireKey rest s = rest s := by
  simp [requireKey, h]

/-- What `requireKey` does with KV = 0. -/
theorem requireKey_of_no_key {rest : State → Result} {s : State} (h : s.kv = false) :
    requireKey rest s = .next (s.answered statusNoKey 0) := by
  simp [requireKey, h, raise_eq]

/-- The operand of RDKEY is the entry its index names (R62). -/
theorem keyOperand_eq_storeAt (ks : KeyStore) (idx : BitVec 4) : keyOperand ks idx = storeAt ks idx.toNat := rfl

/-- The architectural part of an answered state: KV and KS as they were, the response as given. -/
@[simp] theorem arch_answered (s : State) (status : BitVec 2) (data : Block) :
    (s.answered status data).arch = { s.arch with rspStatus := status, rspData := data } := rfl

/-- KEYGEN's answer. -/
theorem execKeygen_eq (idx : BitVec 4) (key : Block) (s : State) :
    execKeygen idx key s = .next ((s.loadKeys (keySchedule key)).answered statusOk 0) := rfl

/-- ENCRYPT's answer with KV = 1. -/
theorem execEncrypt_of_key (idx : BitVec 4) (block : Block) {s : State} (h : s.kv = true) :
    execEncrypt idx block s = .next (s.answered statusOk (transform block s.ks false)) := requireKey_of_key h

/-- ENCRYPT's answer with KV = 0. -/
theorem execEncrypt_of_no_key (idx : BitVec 4) (block : Block) {s : State} (h : s.kv = false) :
    execEncrypt idx block s = .next (s.answered statusNoKey 0) := requireKey_of_no_key h

/-- DECRYPT's answer with KV = 1. -/
theorem execDecrypt_of_key (idx : BitVec 4) (block : Block) {s : State} (h : s.kv = true) :
    execDecrypt idx block s = .next (s.answered statusOk (transform block s.ks true)) := requireKey_of_key h

/-- DECRYPT's answer with KV = 0. -/
theorem execDecrypt_of_no_key (idx : BitVec 4) (block : Block) {s : State} (h : s.kv = false) :
    execDecrypt idx block s = .next (s.answered statusNoKey 0) := requireKey_of_no_key h

/-- RDKEY's answer with KV = 1. -/
theorem execRdkey_of_key (idx : BitVec 4) (data : Block) {s : State} (h : s.kv = true) :
    execRdkey idx data s = .next (s.answered statusOk (zext64 (keyOperand s.ks idx))) := requireKey_of_key h

/-- RDKEY's answer with KV = 0. -/
theorem execRdkey_of_no_key (idx : BitVec 4) (data : Block) {s : State} (h : s.kv = false) :
    execRdkey idx data s = .next (s.answered statusNoKey 0) := requireKey_of_no_key h

/-- ILLEGAL's answer. -/
theorem execIllegal_eq (op : BitVec 3) (idx : BitVec 4) (data : Block) (s : State) :
    execIllegal op idx data s = .next (s.answered statusIllegalOp 0) := rfl

/-- The three ways a command ends: new keys and OK; a result under a valid key; an error with data 0. A NO_KEY comes only with
KV = 0. -/
theorem exec_cases (i : Instr) (s : State) :
    (∃ key, exec i s = .next ((s.loadKeys (keySchedule key)).answered statusOk 0)) ∨
    (s.kv = true ∧ ∃ data, exec i s = .next (s.answered statusOk data)) ∨
    (s.kv = false ∧ exec i s = .next (s.answered statusNoKey 0)) ∨
    exec i s = .next (s.answered statusIllegalOp 0) := by
  cases i with
  | keygen idx key => exact .inl ⟨key, rfl⟩
  | encrypt idx block =>
    cases h : s.kv with
    | true => exact .inr (.inl ⟨rfl, _, execEncrypt_of_key idx block h⟩)
    | false => exact .inr (.inr (.inl ⟨rfl, execEncrypt_of_no_key idx block h⟩))
  | decrypt idx block =>
    cases h : s.kv with
    | true => exact .inr (.inl ⟨rfl, _, execDecrypt_of_key idx block h⟩)
    | false => exact .inr (.inr (.inl ⟨rfl, execDecrypt_of_no_key idx block h⟩))
  | rdkey idx data =>
    cases h : s.kv with
    | true => exact .inr (.inl ⟨rfl, _, execRdkey_of_key idx data h⟩)
    | false => exact .inr (.inr (.inl ⟨rfl, execRdkey_of_no_key idx data h⟩))
  | illegal op idx data => exact .inr (.inr (.inr rfl))

end Sys2Proof.Machine
end

