-- ==== Sys2Proof/Laws/PerInstr.lean ====
section
/-! SUPPORT. Per-constructor laws: the three fields of an encoded command are the command's own (R60). -/

namespace Sys2Proof

theorem opField_packWord (op : BitVec 3) (idx : BitVec 4) (data : Block) : opField (packWord op idx data) = op := by
  apply BitVec.eq_of_getLsbD_eq
  intro i hi
  simp only [opField, packWord, BitVec.getLsbD_extractLsb', BitVec.getLsbD_append]
  have h1 : ¬ 68 + i < 64 := by omega
  have h2 : ¬ 68 + i - 64 < 4 := by omega
  have h3 : 68 + i - 64 - 4 = i := by omega
  simp [hi, h1, h2, h3]

theorem idxField_packWord (op : BitVec 3) (idx : BitVec 4) (data : Block) : idxField (packWord op idx data) = idx := by
  apply BitVec.eq_of_getLsbD_eq
  intro i hi
  simp only [idxField, packWord, BitVec.getLsbD_extractLsb', BitVec.getLsbD_append]
  have h1 : ¬ 64 + i < 64 := by omega
  have h3 : 64 + i - 64 = i := by omega
  simp [hi]

theorem dataField_packWord (op : BitVec 3) (idx : BitVec 4) (data : Block) : dataField (packWord op idx data) = data := by
  apply BitVec.eq_of_getLsbD_eq
  intro i hi
  simp only [dataField, packWord, BitVec.getLsbD_extractLsb', BitVec.getLsbD_append]
  simp [hi]

/-- The fields of a word, packed again, are the word. -/
theorem packWord_fields (w : CmdWord) : packWord (opField w) (idxField w) (dataField w) = w := by
  apply BitVec.eq_of_getLsbD_eq
  intro i hi
  simp only [packWord, opField, idxField, dataField, BitVec.getLsbD_append, BitVec.getLsbD_extractLsb']
  by_cases h1 : i < 64
  · simp [h1]
  · by_cases h2 : i - 64 < 4
    · simp [h1, h2, show 64 + (i - 64) = i by omega]
    · simp [h1, h2, show i - 64 - 4 < 3 by omega, show 68 + (i - 64 - 4) = i by omega]

/-- A value of the op field is one of the four of R61 or reserved. -/
theorem op_cases (op : BitVec 3) :
    (op = 0b000#3 ∨ op = 0b001#3 ∨ op = 0b010#3 ∨ op = 0b011#3) ∧ op.msb = false ∨
    op.msb = true ∧ op ≠ 0b000#3 ∧ op ≠ 0b001#3 ∧ op ≠ 0b010#3 ∧ op ≠ 0b011#3 := by
  revert op
  decide

/-- A reserved op decodes to ILLEGAL with every field kept. -/
theorem decodeFields_of_reserved {op : BitVec 3} (h : op.msb = true) (idx : BitVec 4) (data : Block) :
    decodeFields op idx data = .illegal op idx data := by
  rcases op_cases op with ⟨_, h'⟩ | ⟨_, h0, h1, h2, h3⟩
  · rw [h] at h'; cases h'
  · rw [decodeFields, if_neg h0, if_neg h1, if_neg h2, if_neg h3]

namespace Laws.EncodeFields

/-- The word of a command holds its op, idx and data in the fields of R60. -/
def Statement (i : Instr) : Prop :=
  opField (encodeWord i) = i.op ∧ idxField (encodeWord i) = i.idx ∧ dataField (encodeWord i) = i.data

theorem of_fields (i : Instr) : Statement i :=
  ⟨opField_packWord _ _ _, idxField_packWord _ _ _, dataField_packWord _ _ _⟩

theorem keygen (idx : BitVec 4) (key : Block) : Statement (.keygen idx key) := of_fields _
theorem encrypt (idx : BitVec 4) (block : Block) : Statement (.encrypt idx block) := of_fields _
theorem decrypt (idx : BitVec 4) (block : Block) : Statement (.decrypt idx block) := of_fields _
theorem rdkey (idx : BitVec 4) (data : Block) : Statement (.rdkey idx data) := of_fields _
theorem illegal (op : BitVec 3) (idx : BitVec 4) (data : Block) : Statement (.illegal op idx data) := of_fields _

end Laws.EncodeFields

end Sys2Proof
end

