-- ==== Sys2Proof/Laws/Clock.lean ====
section
/-! SUPPORT. What one rising edge can do, said once. -/

namespace Sys2Proof.Machine

@[simp] theorem nextPins_cons (s : State) (p : Pins) (ps : List Pins) (h : s.pins = p :: ps) : s.nextPins = p := by
  simp [State.nextPins, h]

@[simp] theorem nextPins_nil (s : State) (h : s.pins = []) : s.nextPins = Pins.quiet := by
  simp [State.nextPins, h]

/-- Every edge that goes on is one of five: reset, completion, waiting, acceptance, idling. -/
theorem clockEdge_cases {p : Pins} {s t : State} (h : clockEdge p s = .next t) :
    (p.rst = true ∧ t = s.resetEdge p) ∨
    (p.rst = false ∧ breaksDuty s p = false ∧ s.busy = true ∧ s.latLeft ≤ 1 ∧
      exec (decodeWord s.cmdWord) { s with offer := s.offer.after p } = .next t) ∨
    (p.rst = false ∧ breaksDuty s p = false ∧ s.busy = true ∧ 1 < s.latLeft ∧ t = s.waitEdge p) ∨
    (p.rst = false ∧ breaksDuty s p = false ∧ s.busy = false ∧ p.cmdValid = true ∧ t = s.acceptEdge p) ∨
    (p.rst = false ∧ breaksDuty s p = false ∧ s.busy = false ∧ p.cmdValid = false ∧ t = s.idleEdge) := by
  unfold clockEdge at h
  by_cases hr : p.rst = true
  · rw [if_pos hr] at h
    exact .inl ⟨hr, (Host.Outcome.next.inj h).symm⟩
  have hr' : p.rst = false := by simpa using hr
  rw [if_neg hr] at h
  by_cases hd : breaksDuty s p = true
  · rw [if_pos hd] at h; cases h
  have hd' : breaksDuty s p = false := by simpa using hd
  rw [if_neg hd] at h
  by_cases hb : s.busy = true
  · rw [if_pos hb] at h
    by_cases hl : s.latLeft ≤ 1
    · rw [if_pos hl] at h
      exact .inr (.inl ⟨hr', hd', hb, hl, h⟩)
    · rw [if_neg hl] at h
      exact .inr (.inr (.inl ⟨hr', hd', hb, by omega, (Host.Outcome.next.inj h).symm⟩))
  · have hb' : s.busy = false := by simpa using hb
    rw [if_neg hb] at h
    by_cases hv : p.cmdValid = true
    · rw [if_pos (by simp [accepts, cmdReady, hv, hb', hr'])] at h
      exact .inr (.inr (.inr (.inl ⟨hr', hd', hb', hv, (Host.Outcome.next.inj h).symm⟩)))
    · have hv' : p.cmdValid = false := by simpa using hv
      rw [if_neg (by simp [accepts, hv'])] at h
      exact .inr (.inr (.inr (.inr ⟨hr', hd', hb', hv', (Host.Outcome.next.inj h).symm⟩)))

/-- The same of a step, in terms of the state before it. -/
theorem step_cases {s t : State} (h : step s = .next t) :
    (s.nextPins.rst = true ∧ t = s.dropPins.resetEdge s.nextPins) ∨
    (s.nextPins.rst = false ∧ breaksDuty s s.nextPins = false ∧ s.busy = true ∧ s.latLeft ≤ 1 ∧
      exec (decodeWord s.cmdWord) { s with pins := s.pins.tail, offer := s.offer.after s.nextPins } = .next t) ∨
    (s.nextPins.rst = false ∧ breaksDuty s s.nextPins = false ∧ s.busy = true ∧ 1 < s.latLeft ∧
      t = s.dropPins.waitEdge s.nextPins) ∨
    (s.nextPins.rst = false ∧ breaksDuty s s.nextPins = false ∧ s.busy = false ∧ s.nextPins.cmdValid = true ∧
      t = s.dropPins.acceptEdge s.nextPins) ∨
    (s.nextPins.rst = false ∧ breaksDuty s s.nextPins = false ∧ s.busy = false ∧ s.nextPins.cmdValid = false ∧
      t = s.dropPins.idleEdge) :=
  clockEdge_cases h

/-- Every completed command signals its response and leaves the core free. -/
theorem exec_signals {i : Instr} {s t : State} (h : exec i s = .next t) : t.rspValid = true ∧ t.busy = false := by
  rcases exec_cases i s with ⟨key, h'⟩ | ⟨_, data, h'⟩ | ⟨_, h'⟩ | h' <;>
  · rw [h'] at h
    cases h
    exact ⟨rfl, rfl⟩

/-- A word on the pins is the word raised. -/
@[simp] theorem word_raising (w : CmdWord) : (Pins.raising w).word = w := packWord_fields w

@[simp] theorem raised_raising (w : CmdWord) : (Pins.raising w).raised = some w := congrArg some (word_raising w)

/-! What stands after an edge, case by case. -/

@[simp] theorem after_of_low {p : Pins} (h : p.cmdValid = false) (o : Offer) : o.after p = .nothing := by simp [Offer.after, h]

@[simp] theorem after_leftHigh {p : Pins} (h : p.cmdValid = true) : Offer.leftHigh.after p = .leftHigh := by simp [Offer.after, h]

theorem after_of_raise {p : Pins} (h : p.cmdValid = true) {o : Offer} (ho : o ≠ .leftHigh) : o.after p = .standing p.word := by
  cases o <;> simp_all [Offer.after]

/-- Pins that hold keep the duty. -/
@[simp] theorem allows_holding (o : Offer) : o.allows (Pins.holding o) = true := by
  cases o <;> simp [Offer.allows, Pins.holding]

/-- Pins that hold change nothing in what stands. -/
@[simp] theorem after_holding (o : Offer) : o.after (Pins.holding o) = o := by
  cases o with
  | nothing => rfl
  | standing w => exact congrArg Offer.standing (word_raising w)
  | leftHigh => rfl

/-- Pins that hold assert no reset. -/
@[simp] theorem rst_holding (o : Offer) : (Pins.holding o).rst = false := by
  cases o <;> rfl

/-- Pins that raise a word keep the duty unless another word stands. -/
theorem allows_raising {o : Offer} {w : CmdWord} (h : ∀ v, o = .standing v → v = w) : o.allows (Pins.raising w) = true := by
  cases o with
  | nothing => rfl
  | standing v => simp [Offer.allows, h v rfl]
  | leftHigh => rfl

/-- An edge never faults. -/
theorem clockEdge_ne_fault (p : Pins) (s : State) (f : Fault) : clockEdge p s ≠ .fault f := nomatch f

/-- Every latency is at least one edge (R115). -/
theorem one_le_latency (i : Instr) (kv : Bool) : 1 ≤ latency i kv := by
  cases i <;> cases kv <;>
    simp [latency, Config.latKeygen, Config.latXform, Config.latRdkey, Config.latErr]

end Sys2Proof.Machine
end

