-- ==== Sys2Proof/Laws/Runs.lean ====
section
/-! SUPPORT. Runs of many edges: how `Host.Core.run` and the response list of a run unroll and join. -/

namespace Sys2Proof.Machine

/-- `n` edges of the core. -/
abbrev runEdges (n : Nat) (s : State) : Result := Host.Core.run Sys2Proof.core n s

theorem runEdges_zero (s : State) : runEdges 0 s = .next s := rfl

/-- A first edge that goes on leaves the rest of the run. -/
theorem runEdges_succ {n : Nat} {s t : State} (h : step s = .next t) : runEdges (n + 1) s = runEdges n t := by
  have h' : Host.Core.step Sys2Proof.core s = .next t := h
  simp only [runEdges, Host.Core.run, h']
  rfl

/-- A first edge that refuses ends the run. -/
theorem runEdges_succ_refused {n : Nat} {s : State} {r : Refusal} (h : step s = .refused r) :
    runEdges (n + 1) s = .refused r := by
  have h' : Host.Core.step Sys2Proof.core s = .refused r := h
  simp only [runEdges, Host.Core.run, h']
  rfl

/-- A run of `n + 1` edges that goes on has a first edge that goes on. -/
theorem runEdges_succ_next {n : Nat} {s t : State} (h : runEdges (n + 1) s = .next t) :
    ∃ u, step s = .next u ∧ runEdges n u = .next t := by
  cases hs : step s with
  | next u => exact ⟨u, rfl, by rw [← runEdges_succ hs]; exact h⟩
  | fault r => exact nomatch r
  | refused r => rw [runEdges_succ_refused hs] at h; cases h

/-- Runs join. -/
theorem runEdges_add {a b : Nat} : ∀ {s t : State}, runEdges a s = .next t → runEdges (a + b) s = runEdges b t := by
  induction a with
  | zero => intro s t h; cases h; rw [Nat.zero_add]
  | succ a ih =>
    intro s t h
    obtain ⟨u, hs, hu⟩ := runEdges_succ_next h
    rw [show a + 1 + b = (a + b) + 1 by omega, runEdges_succ hs]
    exact ih hu

/-- The responses of a first edge, then those of the rest. -/
theorem clockResponses_succ {n : Nat} {s t : State} (h : step s = .next t) :
    clockResponses (n + 1) s = (if t.rspValid then [t.response] else []) ++ clockResponses n t := by
  rw [clockResponses, h]

/-- The responses of joined runs are joined. -/
theorem clockResponses_add {a b : Nat} : ∀ {s t : State}, runEdges a s = .next t →
    clockResponses (a + b) s = clockResponses a s ++ clockResponses b t := by
  induction a with
  | zero => intro s t h; cases h; rw [Nat.zero_add]; rfl
  | succ a ih =>
    intro s t h
    obtain ⟨u, hs, hu⟩ := runEdges_succ_next h
    rw [show a + 1 + b = (a + b) + 1 by omega, clockResponses_succ hs, clockResponses_succ hs, ih hu, List.append_assoc]

/-- The moves of a first edge, then those of the rest. -/
theorem clockMoves_succ {n : Nat} {s t : State} (h : step s = .next t) :
    clockMoves (n + 1) s = s.moveOfEdge ++ clockMoves n t := by
  rw [clockMoves, h]

/-- The moves of joined runs are joined. -/
theorem clockMoves_add {a b : Nat} : ∀ {s t : State}, runEdges a s = .next t →
    clockMoves (a + b) s = clockMoves a s ++ clockMoves b t := by
  induction a with
  | zero => intro s t h; cases h; rw [Nat.zero_add]; rfl
  | succ a ih =>
    intro s t h
    obtain ⟨u, hs, hu⟩ := runEdges_succ_next h
    rw [show a + 1 + b = (a + b) + 1 by omega, clockMoves_succ hs, clockMoves_succ hs, ih hu, List.append_assoc]

/-- An edge at which the command in flight goes on. -/
theorem step_wait {s : State} {p : Pins} {ps : List Pins} (hb : s.busy = true) (hl : 1 < s.latLeft) (hp : s.pins = p :: ps)
    (hr : p.rst = false) (hd : breaksDuty s p = false) : step s = .next (s.dropPins.waitEdge p) := by
  have hd' : breaksDuty s.dropPins p = false := hd
  rw [step, nextPins_cons _ _ _ hp, clockEdge, if_neg (by simp [hr]), if_neg (by simp [hd']), if_pos (by simpa using hb),
    if_neg (by simp; omega)]

/-- The edge that accepts a word, whether it stood before, is raised there, or is shown since an acceptance. -/
theorem step_accept {s : State} {w : CmdWord} {ps : List Pins} (hb : s.busy = false) (ho : ∀ v, s.offer = .standing v → v = w)
    (hp : s.pins = Pins.raising w :: ps) : step s = .next (s.dropPins.acceptEdge (Pins.raising w)) := by
  have hd : breaksDuty s.dropPins (Pins.raising w) = false := by simp [breaksDuty, allows_raising ho]
  rw [step, nextPins_cons _ _ _ hp, clockEdge, if_neg (by simp [Pins.raising]), if_neg (by simp [hd]), if_neg (by simp [hb]),
    if_pos (by simp [accepts, cmdReady, hb, Pins.raising])]

/-- While the command in flight goes on, whatever a dutiful host raises: it stays in flight, edge after edge is counted off, nothing
architectural moves, and what the host has to hold follows its samples. -/
theorem runEdges_wait (ps : List Pins) : ∀ (s : State) (rest : List Pins), s.busy = true → ps.length < s.latLeft →
    s.rspValid = false → keepsDuty s.offer ps = true → s.pins = ps ++ rest →
    ∃ t, runEdges ps.length s = .next t ∧ t.arch = s.arch ∧ t.busy = true ∧ t.rspValid = false ∧ t.cmdWord = s.cmdWord ∧
      t.latLeft = s.latLeft - ps.length ∧ t.offer = s.offer.afterAll ps ∧ t.pins = rest ∧ clockResponses ps.length s = [] ∧
      clockMoves ps.length s = [] := by
  induction ps with
  | nil => exact fun s rest hb _ hv _ hp => ⟨s, rfl, rfl, hb, hv, rfl, rfl, rfl, hp, rfl, rfl⟩
  | cons p ps ih =>
    intro s rest hb hl hv hk hp
    simp only [keepsDuty, Bool.and_eq_true, Bool.not_eq_true'] at hk
    obtain ⟨⟨hr, hd⟩, hk⟩ := hk
    have hd' : breaksDuty s p = false := by simp [breaksDuty, hd]
    have hs := step_wait hb (by simp at hl; omega) hp hr hd'
    obtain ⟨t, h1, h2, h3, h4, h5, h6, h7, h8, h9, h10⟩ :=
      ih (s.dropPins.waitEdge p) rest hb (by simp at hl ⊢; omega) rfl hk (by simp [hp])
    refine ⟨t, by rw [List.length_cons, runEdges_succ hs]; exact h1, h2, h3, h4, h5, ?_, h7, h8, ?_, ?_⟩
    · rw [h6]; simp; omega
    · rw [List.length_cons, clockResponses_succ hs, h9]; simp
    · have hn : s.nextPins = p := nextPins_cons _ _ _ hp
      have hm : s.moveOfEdge = [] := by
        simp [State.moveOfEdge, State.completesNext, hn, hr, hb]; simp at hl; omega
      rw [List.length_cons, clockMoves_succ hs, h10, hm, List.nil_append]

/-- A host with `cmd_valid` left at 1 keeps its duty whatever the other inputs are, unless it asserts reset (R112: after acceptance
the host may change the inputs freely). -/
theorem keepsDuty_leftHigh (ps : List Pins) (h : ∀ p ∈ ps, p.rst = false ∧ p.cmdValid = true) :
    keepsDuty .leftHigh ps = true ∧ Offer.leftHigh.afterAll ps = .leftHigh := by
  induction ps with
  | nil => exact ⟨rfl, rfl⟩
  | cons p ps ih =>
    obtain ⟨hr, hv⟩ := h p (by simp)
    have ih := ih fun q hq => h q (by simp [hq])
    rw [keepsDuty, Offer.afterAll, List.foldl_cons, after_leftHigh hv]
    exact ⟨by simp [hr, Offer.allows, ih.1], ih.2⟩

/-- A host that drives the same pins at every edge keeps its duty, unless it asserts reset or another word stands before. -/
theorem keepsDuty_replicate {p : Pins} (hr : p.rst = false) (n : Nat) :
    ∀ {o : Offer}, o.allows p = true → keepsDuty o (List.replicate n p) = true := by
  induction n with
  | zero => exact fun _ => rfl
  | succ n ih =>
    intro o ho
    have ha : (o.after p).allows p = true := by
      cases hv : p.cmdValid <;> cases o <;> simp_all [Offer.after, Offer.allows, Pins.raised]
    simp [List.replicate_succ, keepsDuty, hr, ho, ih ha]

/-- A dutiful stretch of samples is dutiful from its start. -/
theorem keepsDuty_append (ps qs : List Pins) : ∀ o : Offer,
    keepsDuty o (ps ++ qs) = (keepsDuty o ps && keepsDuty (o.afterAll ps) qs) := by
  induction ps with
  | nil => intro o; simp [keepsDuty, Offer.afterAll]
  | cons p ps ih => intro o; simp [keepsDuty, ih, Offer.afterAll, Bool.and_assoc]

end Sys2Proof.Machine
end

