-- ==== Sys2Proof/Laws/Transform.lean ====
section
/-! SUPPORT. What the datapath functions hold, entry by entry and bit by bit. -/

namespace Sys2Proof.Machine

/-- Entry `i` of the key schedule is round key `i + 1`. -/
theorem storeAt_keySchedule (key : Block) {i : Nat} (hi : i < 16) : storeAt (keySchedule key) i = roundKey key (i + 1) := by
  simp [storeAt, keySchedule, Vector.getD, hi, nRounds]

/-- Entry `i` of the subkey store, as the store's own read gives it. -/
theorem getElem_storeAt (ks : KeyStore) {i : Nat} (hi : i < 16) : ks[i]? = some (storeAt ks i) := by
  simp [storeAt, Vector.getD, nRounds, hi]

/-- Two subkey stores with the same 16 entries are equal. -/
theorem eq_of_storeAt_eq {ks ks' : KeyStore} (h : ∀ i, i < 16 → storeAt ks i = storeAt ks' i) : ks = ks' := by
  apply Vector.ext
  intro i hi
  simpa [storeAt, Vector.getD, hi] using h i hi

/-- Bit `i` of the S-box array's output is bit `i % 4` of the lane that writes it. -/
theorem getLsbD_sArray (x : SubKey) {i : Nat} (hi : i < 32) :
    (sArray x).getLsbD i = (sLane (8 - i / 4) x).getLsbD (i % 4) := by
  show BitVec.getLsbD (w := 4 + 4 + 4 + 4 + 4 + 4 + 4 + 4)
    (sLane 1 x ++ sLane 2 x ++ sLane 3 x ++ sLane 4 x ++ sLane 5 x ++ sLane 6 x ++ sLane 7 x ++ sLane 8 x) i = _
  simp only [BitVec.getLsbD_append]
  interval_cases i <;> rfl

end Sys2Proof.Machine
end

