-- ==== Sys2Proof/Tests/Slice0.lean ====
section
/-! SUPPORT. Tests. Every expected value of the first four parts comes from spec/ and is named beside its test by the id it has in
95_test_vectors.md, or by the rule it is read from. The last part shows, for each statement with hypotheses, inputs that meet
them; a clause or a case that several statements share has one witness. -/

namespace Sys2Proof.Tests

open Sys2Proof Sys2Proof.Machine

-- One test at a time: checked all at once, the kernel evaluations below ask for more threads than a small machine has.
set_option Elab.async false

/-! ## Terms and words -/

/-- R61: `011` is RDKEY's op, so an ILLEGAL that holds it is no command and has no word. -/
theorem test_wf_refuses_illegal_with_a_defined_op :
    (Instr.illegal 0b011 0 0).wf = false ∧ encode (.illegal 0b011 0 0) = none := by decide

/-- R65: the reserved ops run from `100` to `111`. -/
theorem test_wf_takes_the_reserved_ops : ∀ op : BitVec 3, (Instr.illegal op 1 2).wf = decide (4 ≤ op.toNat) := by decide

/-- CMD-6 and CMD-7: the word bit by bit from R60, `op` 000, `idx` 1001, then the key. -/
theorem test_decode_keygen :
    decodeWord (0b000#3 ++ 0b1001#4 ++ 0x133457799BBCDFF1#64) = .keygen 9 0x133457799BBCDFF1 ∧
    decodeTableWord 72 0x00133457799BBCDFF1 = some (.keygen 0 0x133457799BBCDFF1) := by decide

/-- CMD-1 and CMD-12. -/
theorem test_decode_encrypt :
    decodeWord (0b001#3 ++ 0b1111#4 ++ 0x0123456789ABCDEF#64) = .encrypt 15 0x0123456789ABCDEF ∧
    decodeTableWord 72 0x1F0123456789ABCDEF = some (.encrypt 15 0x0123456789ABCDEF) := by decide

/-- CMD-13. -/
theorem test_decode_decrypt :
    decodeWord (0b010#3 ++ 0b0000#4 ++ 0x85E813540F0AB405#64) = .decrypt 0 0x85E813540F0AB405 ∧
    decodeTableWord 72 0x2085E813540F0AB405 = some (.decrypt 0 0x85E813540F0AB405) := by decide

/-- P2 step 9. -/
theorem test_decode_rdkey :
    decodeWord (0b011#3 ++ 0b0010#4 ++ 0xFFFFFFFFFFFFFFFF#64) = .rdkey 2 0xFFFFFFFFFFFFFFFF ∧
    decodeTableWord 72 0x32FFFFFFFFFFFFFFFF = some (.rdkey 2 0xFFFFFFFFFFFFFFFF) := by decide

/-- CMD-4 and CMD-5: the lowest and the highest reserved op. -/
theorem test_decode_illegal :
    decodeWord (0b100#3 ++ 0b0000#4 ++ 0x0000000000000000#64) = .illegal 4 0 0 ∧
    decodeTableWord 72 0x7FFFFFFFFFFFFFFFFF = some (.illegal 7 15 0xFFFFFFFFFFFFFFFF) := by decide

/-- R67: RDKEY 15 (CMD-9) as nine bytes, first digits first. -/
theorem test_decode_bytes : decodeBytes [0x3F, 0, 0, 0, 0, 0, 0, 0, 0] = .ok (.rdkey 15 0) := by decide +kernel

/-- R64, R67: eight bytes, ten bytes, and a first digit of 8, are no written form. -/
theorem test_decode_bytes_refuses :
    decodeBytes [0x3F, 0, 0, 0, 0, 0, 0, 0] = .error .wrongLength ∧
    decodeBytes [0x3F, 0, 0, 0, 0, 0, 0, 0, 0, 0] = .error .wrongLength ∧
    decodeBytes [0x80, 0, 0, 0, 0, 0, 0, 0, 0] = .error .notACommandWord := by decide +kernel

/-- R67: the written form of CMD-4; a first digit of 8, and 17 digits, are no written form. -/
theorem test_hex_form :
    Asm.hexForm 0x400000000000000000 =
      ['4', '0', '0', '0', '0', '0', '0', '0', '0', '0', '0', '0', '0', '0', '0', '0', '0', '0'] ∧
    Asm.readHexForm "800000000000000000".toList = none ∧ Asm.readHexForm "40000000000000000".toList = none := by decide +kernel

/-- P2 step 6, with blanks and a comment, and what R68 refuses: a short operand, an op above 7, an index above 15. -/
theorem test_assemble_word_line :
    Asm.assembleLine ("  .word 5 3 0x0123456789abcdef ; reserved".toList) =
      .ok (some (.command 0x530123456789ABCDEF)) ∧
    Asm.assembleLine (".word 5 3 0x0123".toList) = .error .notSixteenHexDigits ∧
    Asm.assembleLine (".word 8 3 0x0123456789ABCDEF".toList) = .error .numberOutOfRange ∧
    Asm.assembleLine (".word 5 16 0x0123456789ABCDEF".toList) = .error .numberOutOfRange := by decide +kernel

/-- P1 step 7, and what R68 refuses: an index above 15, a short operand, an unknown name. -/
theorem test_assemble_rdkey_line :
    Asm.assembleLine "RDKEY 15".toList = .ok (some (.command 0x3F0000000000000000)) ∧
    Asm.assembleLine "RDKEY 16".toList = .error .numberOutOfRange ∧
    Asm.assembleLine "KEYGEN 0x0123".toList = .error .notSixteenHexDigits ∧
    Asm.assembleLine "NOP".toList = .error .unknownCommand := by decide +kernel

/-! ## Primitives and ROMs -/

/-- 3.1: a wrap of one and of two positions. -/
theorem test_rotl28 :
    rotl28 0x8000001 1 = 0x0000003 ∧ rotl28 0xF000000 2 = 0xC000003 ∧ rotl28 0xF0CCAAF 1 = 0xE19955F := by decide

/-- 3.2: IP and IPINV. -/
theorem test_initial_permutations :
    permute 64 Rom.ip (0x0123456789ABCDEF : Block) = 0xCC00CCFFF0AAF0AA ∧
    permute 64 Rom.ip (0x0000000000000001 : Block) = 0x0000008000000000 ∧
    permute 64 Rom.ipinv (0x0123456789ABCDEF : Block) = 0xFF330FAA00330FAA ∧
    permute 64 Rom.ipinv (0x8000000000000000 : Block) = 0x0000000000000040 := by decide +kernel

/-- 3.2: E and P. -/
theorem test_round_permutations :
    expand 0xF0AAF0AA = 0x7A15557A1555 ∧ expand 0x00000001 = 0x800000000002 ∧
    permuteP 0x5C82B597 = 0x234AA9BB ∧ permuteP 0x80000000 = 0x00800000 := by decide +kernel

/-- 3.2: PC1 and PC2. -/
theorem test_key_permutations :
    permute 56 Rom.pc1 (0x0123456789ABCDEF : Block) = 0xF0CCAA0AACCF00 ∧
    permute 56 Rom.pc1 (0x0000000000000080 : Block) = 0x80000000000000 ∧
    permute 48 Rom.pc2 (0xE19955FAACCF1E : KeyPair) = 0x1B02EFFC7072 ∧
    permute 48 Rom.pc2 (0x00000000000001 : KeyPair) = 0x000000000100 := by decide +kernel

/-- 3.3: the columns for chunks 0x21, 0x1E and 0x3F, all eight boxes. -/
theorem test_sbox_corners :
    (List.range 8).map (fun j => (Rom.sRom (j + 1) (sRow 0x21) (sCol 0x21)).toNat) = [15, 13, 1, 3, 11, 4, 6, 2] ∧
    (List.range 8).map (fun j => (Rom.sRom (j + 1) (sRow 0x1E) (sCol 0x1E)).toNat) = [7, 10, 8, 15, 9, 11, 1, 7] ∧
    (List.range 8).map (fun j => (Rom.sRom (j + 1) (sRow 0x3F) (sCol 0x3F)).toNat) = [13, 9, 12, 14, 3, 13, 12, 11] := by
  decide +kernel

/-- 3.5: the S-box array and the round function. -/
theorem test_round_function :
    sArray 0x000000000000 = 0xEFA72C4D ∧ sArray 0x6117BA866527 = 0x5C82B597 ∧
    roundFunction 0xF0AAF0AA 0x1B02EFFC7072 = 0x234AA9BB := by decide +kernel

/-- KS-1, rows 2 and 9: the halves, and the round key, after rounds 2 and 9. -/
theorem test_key_schedule_halves :
    keyHalves 0x133457799BBCDFF1 2 = { c := 0xC332ABF, d := 0x5599E3D } ∧
    roundKey 0x133457799BBCDFF1 9 = 0xE0DBEBEDE781 := by decide +kernel

/-- KS-1, rows 1 and 16 (the examples of R75 and R76). -/
theorem test_key_schedule_first_and_last :
    storeAt (keySchedule 0x133457799BBCDFF1) 0 = 0x1B02EFFC7072 ∧
    storeAt (keySchedule 0x133457799BBCDFF1) 15 = 0xCB3D8B0E17F5 := by decide +kernel

/-- KS-3: one key bit, in the rounds that select it and in one that does not. -/
theorem test_key_schedule_single_bit :
    storeAt (keySchedule 0x8000000000000000) 6 = 0x100000000000 ∧
    storeAt (keySchedule 0x8000000000000000) 7 = 0x000000000000 := by decide +kernel

/-- KAT-1. -/
theorem test_transform_zero : transform 0 (keySchedule 0) false = 0x8CA64DE9C1B123A7 := by decide +kernel

/-- KAT-2 (the example of R90). -/
theorem test_transform_forward :
    transform 0x0123456789ABCDEF (keySchedule 0x133457799BBCDFF1) false = 0x85E813540F0AB405 := by decide +kernel

/-- 5.4: DEC under KS-1 of a block that is no ciphertext of it (CMD-14). -/
theorem test_transform_reverse :
    transform 0x0123456789ABCDEF (keySchedule 0x133457799BBCDFF1) true = 0xEE0F7C12E0B09338 := by decide +kernel

/-! ## Commands -/

/-- The state after reset, with a key. -/
def keyed (key : Block) : State := { State.reset with kv := true, ks := keySchedule key }

/-- CMD-6. -/
theorem test_keygen_loads :
    ∃ t, exec (.keygen 0 0x133457799BBCDFF1) State.reset = .next t ∧ t.kv = true ∧ t.rspStatus = 0b00 ∧ t.rspData = 0 ∧
      storeAt t.ks 8 = 0xE0DBEBEDE781 := ⟨_, rfl, rfl, rfl, rfl, by decide +kernel⟩

/-- CMD-15: the old schedule is replaced whole. -/
theorem test_keygen_replaces :
    ∃ t, exec (.keygen 0 0) (keyed 0x133457799BBCDFF1) = .next t ∧ t.kv = true ∧ t.ks = Vector.replicate 16 0 :=
  ⟨_, rfl, rfl, by decide +kernel⟩

/-- CMD-1. -/
theorem test_encrypt_without_key :
    ∃ t, exec (.encrypt 0 0x0123456789ABCDEF) State.reset = .next t ∧ t.rspStatus = 0b10 ∧ t.rspData = 0 ∧ t.kv = false :=
  ⟨_, rfl, rfl, rfl, rfl⟩

/-- P2 step 8 (KAT-3). -/
theorem test_encrypt :
    ∃ t, exec (.encrypt 0 0x4E6F772069732074) (keyed 0x0123456789ABCDEF) = .next t ∧ t.rspStatus = 0b00 ∧
      t.rspData = 0x3FA40E8A984D4815 := ⟨_, rfl, rfl, by decide +kernel⟩

/-- CMD-2. -/
theorem test_decrypt_without_key :
    ∃ t, exec (.decrypt 0 0) State.reset = .next t ∧ t.rspStatus = 0b10 ∧ t.rspData = 0 ∧ t.kv = false :=
  ⟨_, rfl, rfl, rfl, rfl⟩

/-- P3 step 5. -/
theorem test_decrypt :
    ∃ t, exec (.decrypt 0 0x6A271787AB8883F9) (keyed 0x0123456789ABCDEF) = .next t ∧ t.rspStatus = 0b00 ∧
      t.rspData = 0x68652074696D6520 := ⟨_, rfl, rfl, by decide +kernel⟩

/-- CMD-3. -/
theorem test_rdkey_without_key :
    ∃ t, exec (.rdkey 0 0) State.reset = .next t ∧ t.rspStatus = 0b10 ∧ t.rspData = 0 ∧ t.kv = false :=
  ⟨_, rfl, rfl, rfl, rfl⟩

/-- CMD-10: the entry asked for, zero-extended; `data` ignored. -/
theorem test_rdkey :
    ∃ t, exec (.rdkey 8 0xFFFFFFFFFFFFFFFF) (keyed 0x133457799BBCDFF1) = .next t ∧ t.rspStatus = 0b00 ∧
      t.rspData = 0x0000E0DBEBEDE781 := ⟨_, rfl, rfl, by decide +kernel⟩

/-- CMD-4 and CMD-5: a reserved op is ILLEGAL_OP with KV = 0 and with KV = 1. -/
theorem test_illegal :
    (∃ t, exec (.illegal 4 0 0) State.reset = .next t ∧ t.rspStatus = 0b01 ∧ t.rspData = 0 ∧ t.kv = false) ∧
    (∃ t, exec (.illegal 7 15 0xFFFFFFFFFFFFFFFF) (keyed 0) = .next t ∧ t.rspStatus = 0b01 ∧ t.rspData = 0 ∧ t.kv = true) :=
  ⟨⟨_, rfl, rfl, rfl, rfl⟩, ⟨_, rfl, rfl, rfl, rfl⟩⟩

/-! ## The clock -/

/-- P1 step 2, by the step: the placed ENCRYPT is the first command after reset. -/
theorem test_step_runs_a_placed_command :
    ∃ t, step (State.reset.withFetchWord 72 0x100123456789ABCDEF) = .next t ∧ t.rspStatus = 0b10 ∧ t.rspValid = true ∧
      t.busy = false := ⟨_, rfl, rfl, rfl, rfl⟩

/-- P4 steps 1 and 2: a KEYGEN in flight is lost at a reset edge. -/
theorem test_reset_aborts :
    ∃ t, step { (keyed 0).placeCommand 0x000123456789ABCDEF with pins := [Pins.resetting] } = .next t ∧ t.kv = false ∧
      t.rspValid = false ∧ t.busy = false := ⟨_, rfl, rfl, rfl, rfl⟩

/-- P5, edge e0: acceptance from reset. -/
theorem test_acceptance :
    ∃ t, step { State.reset with pins := [Pins.raising 0x00133457799BBCDFF1] } = .next t ∧ t.busy = true ∧ t.kv = false ∧
      t.cmdWord = 0x00133457799BBCDFF1 := ⟨_, rfl, rfl, rfl, by decide +kernel⟩

/-- R112: a word raised while BUSY = 1, after `cmd_valid` has been 0, is not accepted, and is then to be held. -/
theorem test_raised_while_busy :
    ∃ t, step { State.reset.placeCommand 0 with latLeft := 2, pins := [Pins.raising 0x300000000000000000] } = .next t ∧
      t.busy = true ∧ t.cmdWord = 0 ∧ t.offer = .standing 0x300000000000000000 := ⟨_, rfl, rfl, by decide +kernel, by decide +kernel⟩

/-- R112: after acceptance the host may change the inputs freely: `cmd_valid` left at 1 with one word and then another, and then
dropped, is refused at no edge, and with `cmd_valid` still 1 the first ready core accepts what the pins show. -/
theorem test_inputs_are_free_after_acceptance :
    (∃ t, Host.Core.run Sys2Proof.core 3 { State.reset.placeCommand 0x400000000000000000 with
        latLeft := 3, offer := .leftHigh, pins := [Pins.raising 1, Pins.raising 2, Pins.quiet] } = .next t ∧
      t.rspStatus = 0b01 ∧ t.rspValid = true) ∧
    (∃ t, Host.Core.run Sys2Proof.core 3 { State.reset.placeCommand 0x400000000000000000 with
        latLeft := 2, offer := .leftHigh, pins := [Pins.raising 1, Pins.raising 2, Pins.raising 3] } = .next t ∧
      t.busy = true ∧ t.cmdWord = 3) :=
  ⟨⟨_, rfl, rfl, rfl⟩, ⟨_, rfl, rfl, by decide +kernel⟩⟩

/-- R118, U4: the word raised is dropped before acceptance. -/
theorem test_dropped_word_is_refused :
    step { State.reset with offer := .standing 0x300000000000000000 } = .refused .hostBrokeDuty := rfl

/-! ## Witnesses: inputs that meet the hypotheses of each statement -/

/-- The first and the last position of a Bit Block, and one of each value. -/
theorem test_witness_PositionOneIsTheMostSignificantBit :
    (1 ≤ 1 ∧ 1 ≤ 64) ∧ (1 ≤ 64 ∧ 64 ≤ 64) ∧ pos (1 : Block) 1 = false ∧ pos (1 : Block) 64 = true := by decide

/-- IP meets the bounds that PermuteTakesThePositionTheTableNames asks of a table. -/
theorem test_witness_PermuteTakesThePositionTheTableNames :
    ∀ k, 1 ≤ k → k ≤ Rom.ip.length → 1 ≤ Rom.romRead Rom.ip k ∧ Rom.romRead Rom.ip k ≤ 64 := by
  have h : ∀ k, k < 65 → 1 ≤ k → 1 ≤ Rom.romRead Rom.ip k ∧ Rom.romRead Rom.ip k ≤ 64 := by decide +kernel
  exact fun k h1 h2 => h k (Nat.lt_succ_of_le h2) h1

/-- Both rotations, at the position that wraps (3.1, first two rows). -/
theorem test_witness_RotateMovesPositionsTowardTheFront :
    pos (rotl28 0x8000000 1) 28 = true ∧ pos (rotl28 0xC000000 2) 27 = true ∧ pos (rotl28 0xC000000 2) 28 = true := by decide

/-- A PC2 entry that reads from C and one that reads from D, in the first and the last round. -/
theorem test_witness_EveryRoundKeyBitIsOneKeyBit :
    Rom.romRead Rom.pc2 1 ≤ 28 ∧ ¬Rom.romRead Rom.pc2 48 ≤ 28 ∧
    (Rom.shift.take 1).sum = 1 ∧ (Rom.shift.take 16).sum = 28 := by decide

/-- R70's own pair of keys. -/
theorem test_witness_ParityPositionsDoNotAffectTheSchedule :
    ∀ p, 1 ≤ p → p ≤ 64 → p % 8 ≠ 0 → pos (0 : Block) p = pos (0x0101010101010101 : Block) p := by
  have h : ∀ p, p < 65 → 1 ≤ p → p % 8 ≠ 0 → pos (0 : Block) p = pos (0x0101010101010101 : Block) p := by decide +kernel
  exact fun p h1 h2 => h p (Nat.lt_succ_of_le h2) h1

/-- A key whose C0 is all ones and whose D0 is all zeros. -/
theorem test_witness_ConstantHalvesGiveEqualRoundKeys :
    keyHalves 0x1F1F1F1F0E0E0E0E 0 = { c := 0x0000000, d := 0xFFFFFFF } ∧
    (∀ p, p < 29 → 1 ≤ p → pos (0x0000000 : HalfKey) p = false ∧ pos (0xFFFFFFF : HalfKey) p = true) := by decide +kernel

/-- The first and the last entry of a store, for the statements about each of its entries: KeyScheduleRunsItsSixteenRounds,
ComplementedKeyComplementsRoundKeys, TransformRunsItsSixteenRounds and, with 16, DecryptionRunsTheRoundsBackwards. -/
theorem test_witness_of_the_entries_of_a_store :
    0 < 16 ∧ 15 < 16 ∧ 16 ≤ 16 ∧ storeAt (keySchedule 0) 0 = storeAt (keySchedule 0) 15 := by decide +kernel

/-- Two inputs with the same first chunk and other chunks different, and two with the same last chunk. -/
theorem test_witness_SBoxLanesAreIndependent :
    (0x6117BA866527 : SubKey).extractLsb' 42 6 = (0x600000000000 : SubKey).extractLsb' 42 6 ∧
    (0x6117BA866527 : SubKey).extractLsb' 0 6 = (0x000000000027 : SubKey).extractLsb' 0 6 := by decide

/-- A store with sixteen equal entries. -/
theorem test_witness_EqualRoundKeysMakeDirectionsAgree :
    ∀ i, i < 16 → storeAt (Vector.replicate 16 0x0123456789AB) i = storeAt (Vector.replicate 16 0x0123456789AB) 0 := by
  decide

/-- A well-formed command of every constructor. -/
theorem test_witness_DecodeOfEncodeIsTheCommand :
    (Instr.keygen 9 1).wf = true ∧ (Instr.encrypt 15 2).wf = true ∧ (Instr.decrypt 0 3).wf = true ∧
    (Instr.rdkey 8 4).wf = true ∧ (Instr.illegal 0b100 3 5).wf = true ∧ (Instr.illegal 0b111 3 5).wf = true := by decide

/-- A word for each clause; the clause of a reserved op at both ends of its range. -/
theorem test_witness_EveryWordDecodesByItsOpField :
    (0x0F0000000000000000 : CmdWord).extractLsb' 68 3 = 0b000 ∧ (0x1F0000000000000000 : CmdWord).extractLsb' 68 3 = 0b001 ∧
    (0x2F0000000000000000 : CmdWord).extractLsb' 68 3 = 0b010 ∧ (0x3FFFFFFFFFFFFFFFFF : CmdWord).extractLsb' 68 3 = 0b011 ∧
    (0x3FFFFFFFFFFFFFFFFF : CmdWord).getLsbD 70 = false ∧
    (0x400000000000000000 : CmdWord).getLsbD 70 = true ∧ (0x7FFFFFFFFFFFFFFFFF : CmdWord).getLsbD 70 = true := by decide

/-- Lengths on both sides of nine and of 18, and the least first byte and digit that are refused. -/
theorem test_witness_WrittenFormsReadBack :
    ([] : List Byte).length ≠ 9 ∧ (List.replicate 10 (0 : Byte)).length ≠ 9 ∧
    (List.replicate 8 (0 : Byte)).length = 8 ∧ (0x80 : Byte).msb = true ∧ (0x7F : Byte).msb = false ∧
    (List.replicate 17 '0').length ≠ 18 ∧ (List.replicate 19 '0').length ≠ 18 ∧
    Asm.hexDigit '8' = some 8 ∧ Asm.hexDigit '7' = some 7 := by decide

/-- Fifteen and seventeen hex digits; the numbers just out of range, one at a time. -/
theorem test_witness_AssemblerLinesGiveTheirWords :
    15 < 16 ∧ (7 < 8 ∨ 15 < 0) ∧ (7 < 7 ∨ 15 < 16) ∧ (List.replicate 15 'F').length ≠ 16 ∧ (List.replicate 17 'F').length ≠ 16 ∧
    ∀ n, ∀ ch ∈ List.replicate n 'F', (Asm.hexDigit ch).isSome = true :=
  ⟨by decide, by decide, by decide, by decide, by decide, fun _ _ h => by rw [List.eq_of_mem_replicate h]; rfl⟩

/-- The lowest and the highest reserved op. -/
theorem test_witness_ReservedOpRespondsIllegal :
    (Instr.illegal 0b100 0 0).wf = true ∧ (Instr.illegal 0b111 15 7).wf = true := by decide

/-- A state with a key and one without: the two cases of RDKEY, ENCRYPT and DECRYPT, and of DecryptUndoesEncryptThroughCommands. -/
theorem test_witness_of_both_key_cases : (keyed 0).kv = true ∧ State.reset.kv = false := by decide

/-- Each of the three commands that NoKeyRejectsTheThreeReaders names, in a state without a key. -/
theorem test_witness_NoKeyRejectsTheThreeReaders :
    State.reset.kv = false ∧
    ∀ i ∈ [Instr.encrypt 1 2, .decrypt 1 2, .rdkey 1 2], i = .encrypt 1 2 ∨ i = .decrypt 1 2 ∨ i = .rdkey 1 2 := by decide

/-- Each status that StatusIsDecidedByOpThenKey speaks of is reached, with a key and without. -/
theorem test_witness_StatusIsDecidedByOpThenKey :
    (∃ t, exec (.illegal 0b100 0 0) State.reset = .next t ∧ t.rspStatus = 0b01) ∧
    (∃ t, exec (.illegal 0b111 0 0) (keyed 0) = .next t ∧ t.rspStatus = 0b01) ∧
    (∃ t, exec (.rdkey 15 0) State.reset = .next t ∧ t.rspStatus = 0b10) ∧
    (∃ t, exec (.rdkey 15 0) (keyed 0) = .next t ∧ t.rspStatus = 0b00) ∧
    (∃ t, exec (.keygen 0 0) State.reset = .next t ∧ t.rspStatus = 0b00) :=
  ⟨⟨_, rfl, rfl⟩, ⟨_, rfl, rfl⟩, ⟨_, rfl, rfl⟩, ⟨_, rfl, rfl⟩, ⟨_, rfl, rfl⟩⟩

/-- The two cases of CommandsWriteOnlyTheirTableRow. -/
theorem test_witness_CommandsWriteOnlyTheirTableRow :
    (∃ t, exec (.keygen 3 9) (keyed 0) = .next t ∧ t.ks = keySchedule 9) ∧
    (∃ t, exec (.encrypt 3 9) (keyed 0) = .next t ∧ t.ks = keySchedule 0) := ⟨⟨_, rfl, rfl⟩, ⟨_, rfl, rfl⟩⟩

/-- A command that runs, with a key and without. -/
theorem test_witness_RepeatingACommandRepeatsItsResponse :
    (∃ t, exec (.decrypt 0 9) (keyed 0) = .next t) ∧ (∃ t, exec (.decrypt 0 9) State.reset = .next t) := ⟨⟨_, rfl⟩, ⟨_, rfl⟩⟩

/-- A command that fails for want of a key, and one that fails with a key. -/
theorem test_witness_ErrorsLeaveNoTrace :
    (∃ t, exec (.decrypt 0 0) State.reset = .next t ∧ t.rspStatus ≠ 0b00) ∧
    (∃ t, exec (.illegal 0b101 0 0) (keyed 0) = .next t ∧ t.rspStatus ≠ 0b00) :=
  ⟨⟨_, rfl, by decide⟩, ⟨_, rfl, by decide⟩⟩

/-- Two different states the host cannot tell apart without a key, and two with one. -/
theorem test_witness_UnspecifiedStateIsNeverObserved :
    State.reset.arch.SameToHost { State.reset with ks := Vector.replicate 16 1 }.arch ∧
    (keyed 5).arch.SameToHost { keyed 5 with workC := 1, busy := true }.arch :=
  ⟨⟨rfl, rfl, rfl, fun h => by cases h⟩, ⟨rfl, rfl, rfl, fun _ => rfl⟩⟩

/-- A reset edge while a word is raised and a command is in flight. -/
theorem test_witness_ResetEdgeActsFromEveryState :
    { State.reset.placeCommand 0 with pins := [{ Pins.raising 0 with rst := true }] }.nextPins.rst = true := by decide

/-- A command in flight at its last edge; so too for CompletionEdgeCommitsAtOnce. -/
theorem test_witness_StepRunsTheCommandInFlight :
    let s := State.reset.placeCommand 0x3F0000000000000000
    s.busy = true ∧ s.latLeft = 1 ∧ s.nextPins.rst = false ∧ breaksDuty s s.nextPins = false ∧
      decodeWord s.cmdWord = .rdkey 15 0 := by decide +kernel

/-- A completion at which the host holds the word it will have accepted next. -/
theorem test_witness_CompletionEdgeCommitsAtOnce :
    let s := { State.reset with offer := .standing 0x3F0000000000000000 }.placeCommand 0x400000000000000000
    s.busy = true ∧ s.latLeft ≤ 1 ∧ s.nextPins.rst = false ∧ breaksDuty s s.nextPins = false := by decide +kernel

/-- A well-formed command to place. -/
theorem test_witness_PlacedWordRunsNext : (Instr.illegal 0b110 15 1).wf = true ∧ (Instr.keygen 0 1).wf = true := by decide

/-- The first edge of a raised word at an idle core. -/
theorem test_witness_AcceptanceCapturesTheCommand :
    let s := { State.reset with pins := [Pins.raising 0x3F0000000000000000] }
    s.nextPins.rst = false ∧ s.nextPins.cmdValid = true ∧ cmdReady s s.nextPins = true ∧ breaksDuty s s.nextPins = false := by
  decide +kernel

/-- An edge that is no completion: of an idle core, of one that accepts, and of one that waits. -/
theorem test_witness_ArchitecturalStateHoldsBetweenCompletions :
    ∀ s ∈ [State.reset, { State.reset with pins := [Pins.raising 7] }, { State.reset.placeCommand 7 with latLeft := 2 }],
      (∃ t, step s = .next t) ∧ s.nextPins.rst = false ∧ s.completesNext = false := by
  intro s hs
  simp only [List.mem_cons, List.not_mem_nil, or_false] at hs
  rcases hs with rfl | rfl | rfl <;> exact ⟨⟨_, rfl⟩, rfl, rfl⟩

/-- The edge of its second clause: a command in flight goes on while the host raises the next word, holds it, or has left
`cmd_valid` at 1. -/
theorem test_witness_of_an_edge_in_flight :
    ∀ o ∈ [Offer.nothing, .standing 9, .leftHigh],
      let s := { State.reset.placeCommand 7 with latLeft := 2, offer := o, pins := [Pins.raising 9] }
      s.busy = true ∧ 1 < s.latLeft ∧ s.nextPins.rst = false ∧ breaksDuty s s.nextPins = false ∧
        s.nextPins.cmdValid = true := by decide +kernel

/-- A step that sets KV: the completion of a KEYGEN. -/
theorem test_witness_KeyValidIsSetOnlyByKeygen :
    ∃ t, step (State.reset.placeCommand 0x00133457799BBCDFF1) = .next t ∧
      (State.reset.placeCommand 0x00133457799BBCDFF1).completesNext = true := ⟨_, rfl, rfl⟩

/-- Both clauses of BusyRisesAtAcceptanceAndFallsAtCompletion: an edge that accepts, and one that neither accepts nor completes. -/
theorem test_witness_BusyRisesAtAcceptanceAndFallsAtCompletion :
    (∃ t, step { State.reset with pins := [Pins.raising 7] } = .next t ∧ t.busy = true) ∧
    (∃ t, step { State.reset.placeCommand 7 with latLeft := 2 } = .next t ∧ t.busy = true) ∧
    (∃ t, step (State.reset.placeCommand 7) = .next t ∧ t.busy = false) := ⟨⟨_, rfl, rfl⟩, ⟨_, rfl, rfl⟩, ⟨_, rfl, rfl⟩⟩

/-- A completion and the edge after it. -/
theorem test_witness_ResponseValidLastsOneCycle :
    ∃ t u, step (State.reset.placeCommand 7) = .next t ∧ step t = .next u ∧ t.rspValid = true ∧ u.rspValid = false :=
  ⟨_, _, rfl, rfl, rfl, rfl⟩

/-- A completion with a word raised at the next edge. -/
theorem test_witness_NextCommandIsAcceptedRightAfterCompletion :
    let s := { State.reset.placeCommand 7 with pins := [Pins.quiet, Pins.raising 9] }
    s.completesNext = true ∧ ∃ t, step s = .next t ∧ t.nextPins.rst = false ∧ t.nextPins.cmdValid = true ∧
      breaksDuty t t.nextPins = false := ⟨rfl, _, rfl, rfl, rfl, rfl⟩

/-- An idle core with quiet pins. -/
theorem test_witness_IdleCoreHoldsItsState :
    State.reset.busy = false ∧ (∀ w, State.reset.offer ≠ .standing w) ∧ State.reset.nextPins.rst = false ∧
    State.reset.nextPins.cmdValid = false := ⟨rfl, (fun _ h => nomatch h), rfl, rfl⟩

/-- A word dropped and a word changed, both refused; a word held is accepted; a reset edge ends the duty, and the word raised at it
stands (log 9). -/
theorem test_witness_StepStopsOnlyOnABrokenHostDuty :
    (∀ s ∈ [{ State.reset with offer := .standing 7 }, { State.reset with offer := .standing 7, pins := [Pins.raising 8] }],
      s.nextPins.rst = false ∧ s.offer = .standing 7 ∧ s.nextPins.raised ≠ some 7) ∧
    (∃ t, step { State.reset with offer := .standing 7, pins := [Pins.raising 7] } = .next t ∧ t.offer = .leftHigh) ∧
    ∃ t, step { State.reset with offer := .standing 7, pins := [{ Pins.raising 8 with rst := true }] } = .next t ∧
      t.offer = .standing 8 :=
  ⟨by decide +kernel, ⟨_, rfl, rfl⟩, _, rfl, by decide +kernel⟩

/-- A state other than reset that meets the invariant, with a command in flight and a key, and whose step is a next state. -/
theorem test_witness_EveryStepKeepsTheInvariant :
    ((keyed 5).placeCommand 0x3F0000000000000000).Inv ∧
    ∃ t, step ((keyed 5).placeCommand 0x3F0000000000000000) = .next t :=
  ⟨⟨fun _ => ⟨5, rfl⟩, ⟨.inl rfl, fun _ => rfl, fun h => absurd h (by decide), fun _ => rfl⟩, fun _ => by decide⟩, _, rfl⟩

/-- An idle core whose host shows a word, raised there, held before or left from an acceptance, and then, for the word's latency, is
quiet or leaves `cmd_valid` at 1 with another word. -/
theorem test_witness_AcceptedCommandIsOneTransaction :
    ∀ o ∈ [Offer.nothing, .standing 0x00133457799BBCDFF1, .leftHigh], ∀ p ∈ [Pins.quiet, Pins.raising 9],
      let w : CmdWord := 0x00133457799BBCDFF1
      let ps := List.replicate (latency (decodeWord w) false) p
      let s := { State.reset with offer := o, pins := Pins.raising w :: ps ++ [Pins.quiet] }
      s.busy = false ∧ (∀ v, s.offer = .standing v → v = w) ∧ ps.length = latency (decodeWord w) s.kv ∧
        keepsDuty .leftHigh ps = true ∧ 0 < ps.length := by
  intro o ho p hp
  refine ⟨rfl, ?_, List.length_replicate, keepsDuty_replicate ?_ _ rfl, ?_⟩
  · rintro v rfl; simpa using ho
  · simp only [List.mem_cons, List.not_mem_nil, or_false] at hp; rcases hp with rfl | rfl <;> rfl
  · rw [List.length_replicate]; exact one_le_latency _ _

/-- R112: a word once raised is held, other inputs may change, all of them while `cmd_valid` is left at 1; dropping or changing a
raised word, and a reset, are no such stretch. -/
theorem test_keepsDuty :
    keepsDuty .nothing [{ Pins.quiet with cmdOp := 5 }, { Pins.quiet with cmdData := 3 }, Pins.raising 9, Pins.raising 9] = true ∧
    keepsDuty .leftHigh [Pins.raising 9, Pins.raising 8, Pins.quiet, Pins.raising 7, Pins.raising 7] = true ∧
    keepsDuty .leftHigh [Pins.raising 9, Pins.quiet, Pins.raising 8, Pins.raising 7] = false ∧
    keepsDuty .nothing [Pins.raising 9, Pins.quiet] = false ∧ keepsDuty .nothing [Pins.raising 9, Pins.raising 8] = false ∧
    keepsDuty .leftHigh [Pins.resetting] = false := by decide +kernel

/-- A reset at the first edge after acceptance, and one at the completion edge, whatever the latency is, with a word raised at it. -/
theorem test_witness_ResetAbortsTheCommandInFlight :
    ∀ k ∈ [0, latency (decodeWord 7) false - 1],
      let ps := List.replicate k (Pins.raising 9)
      let r := { Pins.raising 8 with rst := true }
      let s := { State.reset with pins := Pins.raising 7 :: ps ++ r :: [] }
      s.busy = false ∧ (∀ v, s.offer = .standing v → v = 7) ∧ ps.length < latency (decodeWord 7) s.kv ∧
        keepsDuty .leftHigh ps = true ∧ r.rst = true := by
  have h := one_le_latency (decodeWord 7) false
  intro k hk
  refine ⟨rfl, (fun _ h => nomatch h), ?_, keepsDuty_replicate rfl _ rfl, rfl⟩
  simp only [List.length_replicate]
  simp only [List.mem_cons, List.not_mem_nil, or_false] at hk
  rcases hk with rfl | rfl
  · exact h
  · exact Nat.sub_lt h Nat.one_pos

/-- A run of a completion, an idle edge and a reset edge. -/
theorem test_witness_ClockRunsAreTransactionRuns :
    ∃ t, Host.Core.run Sys2Proof.core 3
      { State.reset.placeCommand 0x400000000000000000 with pins := [Pins.quiet, Pins.quiet, Pins.resetting] } = .next t :=
  ⟨_, rfl⟩

/-- A core without a key that completes a KEYGEN, and the key it has then. -/
theorem test_witness_KeysAreThoseOfTheLastKeygen :
    let s := State.reset.placeCommand 0x00133457799BBCDFF1
    s.kv = false ∧ (∃ t, Host.Core.run Sys2Proof.core 1 s = .next t ∧ t.kv = true) ∧
      lastKeygen (clockMoves 1 s) = some 0x133457799BBCDFF1 := ⟨rfl, ⟨_, rfl, rfl⟩, by rfl⟩

/-- An idle core with no word raised, to start a run of the clock from. -/
theorem test_witness_TransactionRunsAreClockRuns : (keyed 5).busy = false ∧ ∀ w, (keyed 5).offer ≠ .standing w :=
  ⟨rfl, fun _ h => nomatch h⟩

end Sys2Proof.Tests
end

section
/-! Bit Blocks, Permute and ROTL28 as the scope rules R7, R9 and R10 state them: by positions and as vectors. -/

namespace Sys2Proof.Machine

/-- R7: positions count from the most significant end, vector bits from the least significant one. -/
theorem pos_eq_getLsbD {n : Nat} (b : BitVec n) {p : Nat} (h1 : 1 ≤ p) (hn : p ≤ n) : pos b p = b.getLsbD (n - p) := by
  have hlt : p - 1 < n := by omega
  have hbit : n - 1 - (p - 1) = n - p := by omega
  simp [pos, BitVec.getMsbD_eq_getLsbD, hlt, hbit]

theorem pos_one_eq_msb {n : Nat} (b : BitVec n) : pos b 1 = b.msb := rfl

/-- The position form of R10, on the whole range of rotations `rotl28` is meant for. -/
theorem pos_rotl28 (v : HalfKey) {s p : Nat} (hs1 : 1 ≤ s) (hs : s ≤ 27) (h1 : 1 ≤ p) (hp : p ≤ 28) :
    pos (rotl28 v s) p = pos v ((p - 1 + s) % 28 + 1) :=
  getMsbD_rotl28 v hs1 hs (by omega)

/-- The numeric form of R10. Only the left shift can leave the width, so reducing it alone or the whole number is the same. -/
theorem toNat_rotl28 (v : HalfKey) (s : Nat) :
    (rotl28 v s).toNat = ((v.toNat <<< s) ||| (v.toNat >>> (28 - s))) % 2 ^ 28 := by
  have hright : (v >>> (28 - s)).toNat % 2 ^ 28 = (v >>> (28 - s)).toNat := Nat.mod_eq_of_lt (v >>> (28 - s)).isLt
  rw [BitVec.toNat_ushiftRight] at hright
  rw [rotl28, BitVec.toNat_or, BitVec.toNat_shiftLeft, BitVec.toNat_ushiftRight, Nat.or_mod_two_pow, hright]

/-- Settles O1: the vector bit of a position, and position 1 as the first bit of the vector. -/
theorem positionOneIsTheMostSignificantBit : Obligations.PositionOneIsTheMostSignificantBit :=
  fun _ b => ⟨fun _ h1 hn => pos_eq_getLsbD b h1 hn, pos_one_eq_msb b⟩

/-- Settles O2: `pos_permute` gives the position form; reading both positions as vector bits gives the other, where the bounds on the
table's entry are needed. -/
theorem permuteTakesThePositionTheTableNames : Obligations.PermuteTakesThePositionTheTableNames := by
  intro n table x hbounds k h1 hk
  obtain ⟨hentry1, hentryn⟩ := hbounds k h1 hk
  have hpos : pos (permute table.length table x) k = pos x (Rom.romRead table k) := pos_permute table x rfl h1 hk
  have hvec := hpos
  rw [pos_eq_getLsbD _ h1 hk, pos_eq_getLsbD x hentry1 hentryn] at hvec
  exact ⟨hpos, hvec⟩

/-- Settles O3: both forms hold for every rotation by 1 to 27, so for the two of the key schedule. -/
theorem rotateMovesPositionsTowardTheFront : Obligations.RotateMovesPositionsTowardTheFront := by
  intro v s hs
  have hs1 : 1 ≤ s := by omega
  have hs27 : s ≤ 27 := by omega
  exact ⟨fun p h1 hp => pos_rotl28 v hs1 hs27 h1 hp, toNat_rotl28 v s⟩

end Sys2Proof.Machine
end

section
/-! What a command does to KV, KS and the response, and what the host can see of it (R25, R27, R54, R96). -/

namespace Sys2Proof.Machine

/-- Every command is a KEYGEN, a reader, whose result is a function of KS alone and needs a key, or an ILLEGAL. -/
theorem exec_kinds (i : Instr) :
    (∃ idx key, i = .keygen idx key) ∨
    (∀ idx key, i ≠ .keygen idx key) ∧
      ((∃ f : KeyStore → Block, ∀ s, exec i s = requireKey (fun u => respond statusOk (f u.ks) u) s) ∨
       ∀ s, exec i s = .next (s.answered statusIllegalOp 0)) := by
  cases i with
  | keygen idx key => exact .inl ⟨idx, key, rfl⟩
  | encrypt idx block => exact .inr ⟨nofun, .inl ⟨fun ks => transform block ks false, fun _ => rfl⟩⟩
  | decrypt idx block => exact .inr ⟨nofun, .inl ⟨fun ks => transform block ks true, fun _ => rfl⟩⟩
  | rdkey idx data => exact .inr ⟨nofun, .inl ⟨fun ks => zext64 (keyOperand ks idx), fun _ => rfl⟩⟩
  | illegal op idx data => exact .inr ⟨nofun, .inr fun _ => rfl⟩

/-- KEYGEN aside, a command only answers: with OK, or with an error and data 0 (R27, R96). -/
theorem exec_answers_of_ne_keygen {i : Instr} (hi : ∀ idx key, i ≠ .keygen idx key) (s : State) :
    ∃ status data, exec i s = .next (s.answered status data) ∧ (status ≠ statusOk → data = 0) := by
  rcases exec_kinds i with ⟨idx, key, h⟩ | ⟨-, ⟨f, h⟩ | h⟩
  · exact absurd h (hi idx key)
  · cases hkv : s.kv with
    | true => exact ⟨statusOk, f s.ks, (h s).trans (requireKey_of_key hkv), fun hne => absurd rfl hne⟩
    | false => exact ⟨statusNoKey, 0, (h s).trans (requireKey_of_no_key hkv), fun _ => rfl⟩
  · exact ⟨statusIllegalOp, 0, h s, fun _ => rfl⟩

/-- Settles O33: KEYGEN writes its own row, and every other command only answers. -/
theorem commandsWriteOnlyTheirTableRow : Obligations.CommandsWriteOnlyTheirTableRow := by
  intro i s t h
  by_cases hi : ∀ idx key, i ≠ .keygen idx key
  · obtain ⟨status, data, hanswer, herror⟩ := exec_answers_of_ne_keygen hi s
    rw [hanswer] at h
    cases h
    exact ⟨rfl, rfl, .inr ⟨hi, rfl, rfl, herror⟩⟩
  · push Not at hi
    obtain ⟨idx, key, rfl⟩ := hi
    cases h
    exact ⟨rfl, rfl, .inl ⟨idx, key, rfl, rfl, rfl, rfl, rfl⟩⟩

/-- A word decodes to KEYGEN exactly when its op is `000` (R61, R65). -/
theorem decodeWord_eq_keygen_iff {w : CmdWord} {idx : BitVec 4} {key : Block} :
    decodeWord w = .keygen idx key ↔ opField w = 0b000#3 ∧ idxField w = idx ∧ dataField w = key := by
  by_cases hop : opField w = 0b000#3
  · simp [decodeWord, decodeFields, hop]
  · rw [decodeWord, decodeFields, if_neg hop]
    split_ifs <;> simp [hop]

/-- What a command word does to KV and KS: op `000` loads its key's schedule, no other op writes either. -/
theorem exec_decodeWord_keys {w : CmdWord} {s t : State} (h : exec (decodeWord w) s = .next t) :
    (opField w = 0b000#3 ∧ t.kv = true ∧ t.ks = keySchedule (dataField w)) ∨
    (opField w ≠ 0b000#3 ∧ t.kv = s.kv ∧ t.ks = s.ks) := by
  obtain ⟨-, -, ⟨idx, key, hi, hkv, hks, -, -⟩ | ⟨hi, hkv, hks, -⟩⟩ := commandsWriteOnlyTheirTableRow _ s t h
  · obtain ⟨hop, -, hdata⟩ := decodeWord_eq_keygen_iff.mp hi
    exact .inl ⟨hop, hkv, hdata ▸ hks⟩
  · exact .inr ⟨fun hop => hi _ _ (decodeWord_eq_keygen_iff.mpr ⟨hop, rfl, rfl⟩), hkv, hks⟩

/-! What the host can tell apart. -/

/-- What `Arch.SameToHost` says of two states, register by register. -/
theorem sameToHost_iff {s s' : State} : s.arch.SameToHost s'.arch ↔
    s.kv = s'.kv ∧ s.rspStatus = s'.rspStatus ∧ s.rspData = s'.rspData ∧ (s.kv = true → s.ks = s'.ks) := Iff.rfl

/-- Equal answers in states the host cannot tell apart leave such states. -/
theorem sameToHost_answered {s s' : State} (h : s.arch.SameToHost s'.arch) (status : BitVec 2) (data : Block) :
    (s.answered status data).arch.SameToHost (s'.answered status data).arch := by
  obtain ⟨hkv, -, -, hks⟩ := h
  exact ⟨hkv, rfl, rfl, hks⟩

/-- The host reads the same response in states it cannot tell apart. -/
theorem response_eq_of_sameToHost {s s' : State} (h : s.arch.SameToHost s'.arch) : s.response = s'.response := by
  obtain ⟨-, hstatus, hdata, -⟩ := h
  exact congrArg₂ Response.mk hstatus hdata

/-- A command takes states the host cannot tell apart to such states: a reader looks at KS only while KV = 1. -/
theorem exec_sameToHost (i : Instr) {s s' : State} (h : s.arch.SameToHost s'.arch) :
    ∃ t t', exec i s = .next t ∧ exec i s' = .next t' ∧ t.arch.SameToHost t'.arch := by
  rcases exec_kinds i with ⟨idx, key, rfl⟩ | ⟨-, ⟨f, hf⟩ | hf⟩
  · exact ⟨_, _, rfl, rfl, rfl, rfl, rfl, fun _ => rfl⟩
  · obtain ⟨hkv, -, -, hks⟩ := sameToHost_iff.mp h
    cases hs : s.kv with
    | true =>
      have hanswer : exec i s' = .next (s'.answered statusOk (f s.ks)) := by
        rw [hf, requireKey_of_key (hkv ▸ hs), hks hs, respond_eq]
      exact ⟨_, _, (hf s).trans (requireKey_of_key hs), hanswer, sameToHost_answered h _ _⟩
    | false =>
      exact ⟨_, _, (hf s).trans (requireKey_of_no_key hs), (hf s').trans (requireKey_of_no_key (hkv ▸ hs)),
        sameToHost_answered h _ _⟩
  · exact ⟨_, _, hf s, hf s', sameToHost_answered h _ _⟩

/-- After a reset the host cannot tell any two states apart (R108). -/
theorem resetRegisters_sameToHost (s s' : State) : s.resetRegisters.arch.SameToHost s'.resetRegisters.arch :=
  sameToHost_iff.mpr ⟨rfl, rfl, rfl, fun hkv => absurd hkv (by simp)⟩

/-- One move from states the host cannot tell apart: the same response, and such states again. -/
theorem apply_sameToHost (m : Move) {s s' : State} (h : s.arch.SameToHost s'.arch) :
    ∃ t t', m.apply s = .next t ∧ m.apply s' = .next t' ∧ t.arch.SameToHost t'.arch ∧ m.observe t = m.observe t' := by
  cases m with
  | command w =>
    obtain ⟨t, t', ht, ht', hsame⟩ := exec_sameToHost (decodeWord w) h
    exact ⟨t, t', ht, ht', hsame, congrArg (fun r => [r]) (response_eq_of_sameToHost hsame)⟩
  | reset => exact ⟨_, _, rfl, rfl, resetRegisters_sameToHost s s', (rfl : [] = [])⟩
  | aborted w => exact ⟨_, _, rfl, rfl, resetRegisters_sameToHost s s', (rfl : [] = [])⟩

theorem responses_cons {m : Move} {s t : State} (h : m.apply s = .next t) (ms : List Move) :
    responses (m :: ms) s = m.observe t ++ responses ms t := by
  rw [responses, h]

theorem afterMoves_cons {m : Move} {s t : State} (h : m.apply s = .next t) (ms : List Move) :
    afterMoves (m :: ms) s = afterMoves ms t := by
  rw [afterMoves, h]

/-- Settles O41, by induction on the moves: each gives the same response and keeps the relation. -/
theorem unspecifiedStateIsNeverObserved : Obligations.UnspecifiedStateIsNeverObserved := by
  intro ms
  induction ms with
  | nil => exact fun _ _ h => ⟨rfl, h⟩
  | cons m ms ih =>
    intro s s' h
    obtain ⟨t, t', ht, ht', hsame, hobserve⟩ := apply_sameToHost m h
    obtain ⟨hresponses, hafter⟩ := ih t t' hsame
    rw [responses_cons ht, responses_cons ht', afterMoves_cons ht, afterMoves_cons ht', hobserve, hresponses]
    exact ⟨rfl, hafter⟩

end Sys2Proof.Machine
end

section
/-! What an edge does to the architectural state and the sequencing signals (R16 to R21, R112, R113). -/

namespace Sys2Proof.Machine

/-- The five edges of `step_cases` by what they do to the architecture: a reset, a completion, or an edge that only moves the
sequencing. -/
theorem step_arch_cases {s t : State} (h : step s = .next t) :
    (s.nextPins.rst = true ∧ s.completesNext = false ∧ t = s.dropPins.resetEdge s.nextPins) ∨
    (s.nextPins.rst = false ∧ s.completesNext = true ∧ s.busy = true ∧
      ∃ u : State, u.arch = s.arch ∧ exec (decodeWord s.cmdWord) u = .next t) ∨
    (s.nextPins.rst = false ∧ s.completesNext = false ∧ t.arch = s.arch ∧ t.rspValid = false ∧
      t.busy = (s.busy || accepts s s.nextPins)) := by
  rcases step_cases h with ⟨hr, ht⟩ | ⟨hr, -, hb, hl, hexec⟩ | ⟨hr, -, hb, hl, rfl⟩ | ⟨hr, -, hb, hv, rfl⟩ | ⟨hr, -, hb, hv, rfl⟩
  · exact .inl ⟨hr, by simp [State.completesNext, hr], ht⟩
  · refine .inr (.inl ⟨hr, by simp [State.completesNext, hr, hb, hl], hb, _, ?_, hexec⟩)
    rfl
  · exact .inr (.inr ⟨hr, by simp [State.completesNext, hl], rfl, rfl, by simp [hb]⟩)
  · exact .inr (.inr ⟨hr, by simp [State.completesNext, hb], rfl, rfl, by simp [accepts, cmdReady, hb, hv, hr]⟩)
  · exact .inr (.inr ⟨hr, by simp [State.completesNext, hb], rfl, rfl, by simp [accepts, hb, hv]⟩)

/-- The edge at which the command in flight goes on, at whatever pins come next. -/
theorem step_in_flight {s : State} (hb : s.busy = true) (hl : 1 < s.latLeft) (hr : s.nextPins.rst = false)
    (hd : breaksDuty s s.nextPins = false) : step s = .next (s.dropPins.waitEdge s.nextPins) := by
  have hd' : breaksDuty s.dropPins s.nextPins = false := hd
  have hl' : ¬ s.latLeft ≤ 1 := by omega
  simp [step, clockEdge, hr, hd', hb, hl']

/-- Settles O48: an edge that is no reset and no completion leaves the architecture, and the one that waits is `waitEdge`. -/
theorem architecturalStateHoldsBetweenCompletions : Obligations.ArchitecturalStateHoldsBetweenCompletions := by
  refine ⟨fun s t h hr hc => ?_, fun s hb hl hr hd => ?_⟩
  · rcases step_arch_cases h with ⟨hr', -, -⟩ | ⟨-, hc', -⟩ | ⟨-, -, harch, -, -⟩
    · simp [hr] at hr'
    · simp [hc] at hc'
    · exact harch
  · refine ⟨_, step_in_flight hb hl hr hd, hb, rfl, rfl, rfl, rfl, rfl, rfl, rfl, fun hv => after_of_low hv _, ?_, ?_⟩
    · exact fun hv ho => (congrArg (Offer.after · s.nextPins) ho).trans (after_leftHigh hv)
    · exact fun hv ho => after_of_raise hv ho

/-- Settles O49, by the three kinds of edge. -/
theorem keyValidIsSetOnlyByKeygen : Obligations.KeyValidIsSetOnlyByKeygen := by
  intro s t h
  rcases step_arch_cases h with ⟨hr, -, rfl⟩ | ⟨hr, hc, -, u, harch, hexec⟩ | ⟨hr, hc, harch, -, -⟩
  · simp [hr]
  · have hop : opField s.cmdWord = s.cmdOp := opField_packWord _ _ _
    have hkv : u.kv = s.kv := congrArg Arch.kv harch
    rcases exec_decodeWord_keys hexec with ⟨hop', hkv', -⟩ | ⟨hop', hkv', -⟩ <;> rw [hop] at hop'
    · simp [hr, hc, hop', hkv']
    · simp [hr, hop', hkv', hkv]
  · have hkv : t.kv = s.kv := congrArg Arch.kv harch
    simp [hr, hc, hkv]

/-- Settles O50, by the three kinds of edge. -/
theorem busyRisesAtAcceptanceAndFallsAtCompletion : Obligations.BusyRisesAtAcceptanceAndFallsAtCompletion := by
  refine ⟨fun s t h => ?_, fun _ _ => rfl, rfl⟩
  rcases step_arch_cases h with ⟨hr, -, rfl⟩ | ⟨hr, hc, hb, u, -, hexec⟩ | ⟨hr, hc, -, -, hbusy⟩
  · simp [hr]
  · have haccepts : accepts s s.nextPins = false := by simp [accepts, cmdReady, hb]
    simp [exec_signals hexec, hc, haccepts]
  · simp [hbusy, hr, hc, or_comm]

/-- RSP_VALID after an edge says whether the edge completed a command (R21). -/
theorem rspValid_of_step {s t : State} (h : step s = .next t) : t.rspValid = s.completesNext := by
  rcases step_arch_cases h with ⟨-, hc, rfl⟩ | ⟨-, hc, -, u, -, hexec⟩ | ⟨-, hc, -, hvalid, -⟩
  · exact hc.symm
  · exact (exec_signals hexec).1.trans hc.symm
  · exact hvalid.trans hc.symm

/-- A completion leaves no command in flight, so the next edge completes none. -/
theorem completesNext_false_of_completion {s t : State} (h : step s = .next t) (hc : s.completesNext = true) :
    t.completesNext = false := by
  rcases step_arch_cases h with ⟨-, hc', -⟩ | ⟨-, -, -, u, -, hexec⟩ | ⟨-, hc', -⟩
  · simp [hc] at hc'
  · simp [State.completesNext, exec_signals hexec]
  · simp [hc] at hc'

/-- Settles O51: two edges in a row cannot both be completions. -/
theorem responseValidLastsOneCycle : Obligations.ResponseValidLastsOneCycle := by
  refine ⟨fun s t h => by rw [rspValid_of_step h], fun s t u hst htu hvalid => ?_, fun _ _ => rfl, rfl⟩
  rw [rspValid_of_step hst] at hvalid
  rw [rspValid_of_step htu, completesNext_false_of_completion hst hvalid]

end Sys2Proof.Machine
end

section
/-! The invariant of the core (R20, R21, R25, R28, R93, R96). -/

namespace Sys2Proof.Machine

/-- Settles O55. -/
theorem resetStateMeetsTheInvariant : Obligations.ResetStateMeetsTheInvariant :=
  { keys := nofun
    response := ⟨.inl rfl, fun _ => rfl, fun _ => rfl, fun _ => rfl⟩
    sequencing := nofun }

theorem keysAreASchedule_of_arch_eq {s t : State} (h : t.arch = s.arch) (hs : s.KeysAreASchedule) : t.KeysAreASchedule := by
  obtain ⟨hkv, hks, -, -⟩ := Arch.mk.inj h
  rwa [State.KeysAreASchedule, hkv, hks]

theorem responseIsLegal_of_arch_eq {s t : State} (h : t.arch = s.arch) (hs : s.ResponseIsLegal) : t.ResponseIsLegal := by
  obtain ⟨hkv, -, hstatus, hdata⟩ := Arch.mk.inj h
  rwa [State.ResponseIsLegal, hkv, hstatus, hdata]

/-- A command leaves the keys alone or loads a whole schedule. -/
theorem exec_keeps_keysAreASchedule {i : Instr} {s t : State} (hs : s.KeysAreASchedule) (h : exec i s = .next t) :
    t.KeysAreASchedule := by
  rcases commandsWriteOnlyTheirTableRow i s t h with ⟨-, -, ⟨idx, key, -, -, hks, -, -⟩ | ⟨-, hkv, hks, -⟩⟩
  · exact fun _ => ⟨key, hks⟩
  · rwa [State.KeysAreASchedule, hkv, hks]

/-- A command's response is legal, whatever stood before. -/
theorem exec_responseIsLegal {i : Instr} {s t : State} (h : exec i s = .next t) : t.ResponseIsLegal := by
  rcases exec_cases i s with ⟨key, h'⟩ | ⟨hkv, data, h'⟩ | ⟨hkv, h'⟩ | h' <;> rw [h'] at h <;> cases h
  · exact ⟨.inl rfl, fun _ => rfl, fun hno => absurd hno (show statusOk ≠ statusNoKey by decide), fun _ => rfl⟩
  · exact ⟨.inl rfl, fun hne => absurd rfl hne, fun hno => absurd hno (show statusOk ≠ statusNoKey by decide),
      fun hkv' => by simp [hkv] at hkv'⟩
  · exact ⟨.inr (.inr rfl), fun _ => rfl, fun _ => hkv, fun _ => rfl⟩
  · exact ⟨.inr (.inl rfl), fun _ => rfl, fun hno => absurd hno (show statusIllegalOp ≠ statusNoKey by decide), fun _ => rfl⟩

/-- While a command is in flight the round counter is in R25's range. -/
theorem runWorking_workRC_le (s : State) : s.runWorking.workRC.toNat ≤ 16 := by
  have hlt : Config.freeRounds s.draws % 17 < 17 := Nat.mod_lt _ (by decide)
  rw [State.runWorking_workRC, BitVec.toNat_ofNat]
  omega

/-- The sequencing is legal after every edge, whatever stood before: only an edge that waits or accepts leaves a command in flight. -/
theorem step_sequencingIsLegal {s t : State} (h : step s = .next t) : t.SequencingIsLegal := by
  rcases step_cases h with ⟨-, rfl⟩ | ⟨-, -, -, -, hexec⟩ | ⟨-, -, -, hl, rfl⟩ | ⟨-, -, -, -, rfl⟩ | ⟨-, -, hb, -, rfl⟩
  · exact nofun
  · intro hbusy
    simp [exec_signals hexec] at hbusy
  · exact fun _ => ⟨rfl, Nat.le_sub_one_of_lt hl, runWorking_workRC_le s.dropPins⟩
  · exact fun _ => ⟨rfl, one_le_latency _ _, runWorking_workRC_le (s.dropPins.capture s.nextPins)⟩
  · intro hbusy
    simp [hb] at hbusy

/-- Settles O56: keys and response by the three kinds of edge. -/
theorem everyStepKeepsTheInvariant : Obligations.EveryStepKeepsTheInvariant := by
  intro s t hs h
  obtain ⟨hkeys, hresponse, -⟩ := hs
  rcases step_arch_cases h with ⟨-, -, rfl⟩ | ⟨-, -, -, u, harch, hexec⟩ | ⟨-, -, harch, -, -⟩
  · exact ⟨nofun, ⟨.inl rfl, fun _ => rfl, fun _ => rfl, fun _ => rfl⟩, step_sequencingIsLegal h⟩
  · exact ⟨exec_keeps_keysAreASchedule (keysAreASchedule_of_arch_eq harch hkeys) hexec, exec_responseIsLegal hexec,
      step_sequencingIsLegal h⟩
  · exact ⟨keysAreASchedule_of_arch_eq harch hkeys, responseIsLegal_of_arch_eq harch hresponse, step_sequencingIsLegal h⟩

end Sys2Proof.Machine
end

section
/-! KV and KS along runs of the clock (R28). -/

namespace Sys2Proof.Machine

/-- `Move.keyAfter` along moves from any start: `lastKeygen` is the case in which there was no key before. -/
def keyAfterMoves (before : Option Block) (ms : List Move) : Option Block := ms.foldl (fun key m => m.keyAfter key) before

theorem lastKeygen_eq (ms : List Move) : lastKeygen ms = keyAfterMoves none ms := rfl

theorem keyAfterMoves_append (before : Option Block) (ms ms' : List Move) :
    keyAfterMoves before (ms ++ ms') = keyAfterMoves (keyAfterMoves before ms) ms' := List.foldl_append

/-- R28 for one state: KV says whether there is a key, and KS is then its schedule. -/
def State.HoldsKey (s : State) (key : Option Block) : Prop :=
  s.kv = key.isSome ∧ ∀ k, key = some k → s.ks = keySchedule k

theorem holdsKey_of_kv_false {s : State} (h : s.kv = false) : s.HoldsKey none := ⟨h, nofun⟩

theorem holdsKey_of_arch_eq {s t : State} (h : t.arch = s.arch) {key : Option Block} (hs : s.HoldsKey key) : t.HoldsKey key := by
  obtain ⟨hkv, hks, -, -⟩ := Arch.mk.inj h
  rwa [State.HoldsKey, hkv, hks]

/-- A command word moves KV and KS as its move says. -/
theorem exec_decodeWord_holdsKey {w : CmdWord} {s t : State} {key : Option Block} (hs : s.HoldsKey key)
    (h : exec (decodeWord w) s = .next t) : t.HoldsKey ((Move.command w).keyAfter key) := by
  rcases exec_decodeWord_keys h with ⟨hop, hkv, hks⟩ | ⟨hop, hkv, hks⟩
  · rw [Move.keyAfter, if_pos hop]
    exact ⟨hkv, fun k hk => Option.some.inj hk ▸ hks⟩
  · rw [Move.keyAfter, if_neg hop]
    rwa [State.HoldsKey, hkv, hks]

/-- An edge moves KV and KS as its moves say. -/
theorem step_holdsKey {s t : State} {key : Option Block} (hs : s.HoldsKey key) (h : step s = .next t) :
    t.HoldsKey (keyAfterMoves key s.moveOfEdge) := by
  rcases step_arch_cases h with ⟨hr, -, rfl⟩ | ⟨hr, hc, -, u, harch, hexec⟩ | ⟨hr, hc, harch, -, -⟩
  · have hmoves : s.moveOfEdge = [.reset] := by simp [State.moveOfEdge, hr]
    rw [hmoves]
    exact holdsKey_of_kv_false rfl
  · have hmoves : s.moveOfEdge = [.command s.cmdWord] := by simp [State.moveOfEdge, hr, hc]
    rw [hmoves]
    exact exec_decodeWord_holdsKey (holdsKey_of_arch_eq harch hs) hexec
  · have hmoves : s.moveOfEdge = [] := by simp [State.moveOfEdge, hr, hc]
    rw [hmoves]
    exact holdsKey_of_arch_eq harch hs

/-- A run moves KV and KS as its moves say, by induction on its edges. -/
theorem runEdges_holdsKey {n : Nat} : ∀ {s t : State} {key : Option Block}, s.HoldsKey key → runEdges n s = .next t →
    t.HoldsKey (keyAfterMoves key (clockMoves n s)) := by
  induction n with
  | zero => intro s t key hs h; cases h; exact hs
  | succ n ih =>
    intro s t key hs h
    obtain ⟨u, hstep, hrun⟩ := runEdges_succ_next h
    rw [clockMoves_succ hstep, keyAfterMoves_append]
    exact ih (step_holdsKey hs hstep) hrun

/-- Settles O37: `HoldsKey` along the run, from a state without a key. -/
theorem keysAreThoseOfTheLastKeygen : Obligations.KeysAreThoseOfTheLastKeygen := by
  intro n s t hs hrun
  obtain ⟨hkv, hks⟩ : t.HoldsKey (lastKeygen (clockMoves n s)) := runEdges_holdsKey (holdsKey_of_kv_false hs) hrun
  refine ⟨by rw [hkv, Option.isSome_iff_exists], fun key hkey k h1 h16 => ?_⟩
  have hindex : k - 1 + 1 = k := by omega
  rw [hks key hkey, storeAt_keySchedule key (by omega), hindex]

end Sys2Proof.Machine
end

section
/-! Runs of the clock as runs at the transaction level (R56, R113, R120): one edge is simulated by its own moves, and the run by
induction on its edges. -/

namespace Sys2Proof.Machine

theorem sameToHost_of_arch_eq {s t : State} (h : t.arch = s.arch) : t.arch.SameToHost s.arch := by
  rw [h]
  exact ⟨rfl, rfl, rfl, fun _ => rfl⟩

theorem sameToHost_trans {a b c : Arch} (hab : a.SameToHost b) (hbc : b.SameToHost c) : a.SameToHost c := by
  obtain ⟨hkv, hstatus, hdata, hks⟩ := hab
  obtain ⟨hkv', hstatus', hdata', hks'⟩ := hbc
  exact ⟨hkv.trans hkv', hstatus.trans hstatus', hdata.trans hdata', fun h => (hks h).trans (hks' (hkv ▸ h))⟩

/-- No move stops: a reset always acts, and `Exec` is total (R120). -/
theorem apply_eq_next (m : Move) (s : State) : ∃ t, m.apply s = .next t := by
  obtain ⟨t, -, ht, -⟩ := apply_sameToHost m (sameToHost_of_arch_eq (s := s) rfl)
  exact ⟨t, ht⟩

theorem afterMoves_append (ms ms' : List Move) : ∀ s, afterMoves (ms ++ ms') s = afterMoves ms' (afterMoves ms s) := by
  induction ms with
  | nil => exact fun _ => rfl
  | cons m ms ih =>
    intro s
    obtain ⟨t, ht⟩ := apply_eq_next m s
    rw [List.cons_append, afterMoves_cons ht, afterMoves_cons ht, ih]

theorem responses_append (ms ms' : List Move) :
    ∀ s, responses (ms ++ ms') s = responses ms s ++ responses ms' (afterMoves ms s) := by
  induction ms with
  | nil => exact fun _ => rfl
  | cons m ms ih =>
    intro s
    obtain ⟨t, ht⟩ := apply_eq_next m s
    rw [List.cons_append, responses_cons ht, responses_cons ht, afterMoves_cons ht, ih, List.append_assoc]

theorem moveOfEdge_of_reset {s : State} (hr : s.nextPins.rst = true) : s.moveOfEdge = [.reset] := by
  simp [State.moveOfEdge, hr]

theorem moveOfEdge_of_completion {s : State} (hr : s.nextPins.rst = false) (hc : s.completesNext = true) :
    s.moveOfEdge = [.command s.cmdWord] := by
  simp [State.moveOfEdge, hr, hc]

theorem moveOfEdge_of_neither {s : State} (hr : s.nextPins.rst = false) (hc : s.completesNext = false) : s.moveOfEdge = [] := by
  simp [State.moveOfEdge, hr, hc]

/-- One edge is its moves: what RSP_VALID signals after it is what they answer, and it ends where they do, as far as the host can
tell. -/
theorem step_simulated_by_moves {s t : State} (h : step s = .next t) :
    (if t.rspValid then [t.response] else []) = responses s.moveOfEdge s ∧
    t.arch.SameToHost (afterMoves s.moveOfEdge s).arch := by
  rcases step_arch_cases h with ⟨hr, -, rfl⟩ | ⟨hr, hc, -, u, harch, hexec⟩ | ⟨hr, hc, harch, hvalid, -⟩
  · rw [moveOfEdge_of_reset hr]
    exact ⟨rfl, resetRegisters_sameToHost s.dropPins s⟩
  · obtain ⟨t₁, t', ht₁, ht', hsame⟩ := exec_sameToHost (decodeWord s.cmdWord) (sameToHost_of_arch_eq harch)
    obtain rfl : t₁ = t := Host.Outcome.next.inj (ht₁.symm.trans hexec)
    have hmove : (Move.command s.cmdWord).apply s = .next t' := ht'
    rw [moveOfEdge_of_completion hr hc, responses_cons hmove, afterMoves_cons hmove, if_pos (exec_signals hexec).1,
      response_eq_of_sameToHost hsame]
    exact ⟨rfl, hsame⟩
  · rw [moveOfEdge_of_neither hr hc, hvalid]
    exact ⟨rfl, sameToHost_of_arch_eq harch⟩

/-- Settles O59, by induction on the edges. The rest of the run starts where the first edge's moves end, up to what the host cannot
tell apart, and by O41 the rest of the moves shows no difference. -/
theorem clockRunsAreTransactionRuns : Obligations.ClockRunsAreTransactionRuns := by
  intro n
  induction n with
  | zero =>
    intro s t hrun
    cases hrun
    exact ⟨rfl, sameToHost_of_arch_eq rfl⟩
  | succ n ih =>
    intro s t hrun
    obtain ⟨u, hstep, hrest⟩ := runEdges_succ_next hrun
    obtain ⟨hedge, hsame⟩ := step_simulated_by_moves hstep
    obtain ⟨hresponses, hafter⟩ := ih u t hrest
    obtain ⟨hsameResponses, hsameAfter⟩ := unspecifiedStateIsNeverObserved (clockMoves n u) u _ hsame
    rw [clockMoves_succ hstep, clockResponses_succ hstep, responses_append, afterMoves_append]
    exact ⟨by rw [hedge, hresponses, hsameResponses], sameToHost_trans hafter hsameAfter⟩

end Sys2Proof.Machine
end

section
/-! Permutations that undo each other, and the ROM tables (R32 to R50). -/

namespace Sys2Proof.Machine

theorem length_of_permOk {m n : Nat} {table : List Nat} (h : Rom.permOk m n table = true) : table.length = m := by
  obtain ⟨hlength, -⟩ := Bool.and_eq_true_iff.mp h
  exact beq_iff_eq.mp hlength

/-- What the check of R35 says of the entries, as `RomRead` reads them. -/
theorem romRead_bounds_of_permOk {m n : Nat} {table : List Nat} (h : Rom.permOk m n table = true) {k : Nat} (h1 : 1 ≤ k)
    (hk : k ≤ m) : 1 ≤ Rom.romRead table k ∧ Rom.romRead table k ≤ n := by
  have hlt : k - 1 < table.length := by rw [length_of_permOk h]; omega
  obtain ⟨-, hentries⟩ := Bool.and_eq_true_iff.mp h
  rw [Rom.romRead, List.getD_eq_getElem _ _ hlt]
  exact of_decide_eq_true (List.all_eq_true.mp hentries _ (List.getElem_mem hlt))

/-- Tables that are inverse as tables are inverse as permutations of blocks (R9). -/
theorem permute_permute_of_inverse {n : Nat} {outer inner : List Nat} (houter : Rom.permOk n n outer = true)
    (hinner : Rom.permOk n n inner = true)
    (hinverse : ∀ k ∈ List.range' 1 n, Rom.romRead inner (Rom.romRead outer k) = k) (x : BitVec n) :
    permute n outer (permute n inner x) = x := by
  apply eq_of_pos_eq
  intro k h1 hk
  obtain ⟨hentry1, hentryn⟩ := romRead_bounds_of_permOk houter h1 hk
  have hmem : k ∈ List.range' 1 n := List.mem_range'_1.mpr ⟨h1, by omega⟩
  calc pos (permute n outer (permute n inner x)) k
      = pos (permute n inner x) (Rom.romRead outer k) := pos_permute outer _ (length_of_permOk houter) h1 hk
    _ = pos x (Rom.romRead inner (Rom.romRead outer k)) :=
        pos_permute inner x (length_of_permOk hinner) hentry1 hentryn
    _ = pos x k := by rw [hinverse k hmem]

theorem permOk_ip : Rom.permOk 64 64 Rom.ip = true := by decide

theorem permOk_ipinv : Rom.permOk 64 64 Rom.ipinv = true := by decide

/-- IPINV inverts IP as a table (R40). -/
theorem romRead_ipinv_ip : ∀ k ∈ List.range' 1 64, Rom.romRead Rom.ipinv (Rom.romRead Rom.ip k) = k := by decide

theorem romRead_ip_ipinv : ∀ k ∈ List.range' 1 64, Rom.romRead Rom.ip (Rom.romRead Rom.ipinv k) = k := by decide

/-- Settles O5: the two tables are inverse in both directions. -/
theorem inverseInitialPermutationUndoesInitial : Obligations.InverseInitialPermutationUndoesInitial :=
  fun x => ⟨permute_permute_of_inverse permOk_ipinv permOk_ip romRead_ip_ipinv x,
    permute_permute_of_inverse permOk_ip permOk_ipinv romRead_ipinv_ip x⟩

/-- The tables meet the check of R35. -/
theorem rom_wellFormed : Rom.wellFormed = true := by decide

/-- Every row of every S-box holds each 4-bit value (R50). -/
theorem sBox_rows_hold_every_value : ∀ box ∈ Rom.sBoxes, ∀ row ∈ box, ∀ v ∈ List.range 16, v ∈ row := by decide

/-- Settles O4, clause by clause: each is a closed fact about tables of at most 64 small numbers. -/
theorem romTablesHaveTheirStatedStructure : Obligations.RomTablesHaveTheirStatedStructure := by
  refine ⟨rom_wellFormed, ?shift, ?pc1, ?pc2, romRead_ipinv_ip, ?pbox, ?expansion, sBox_rows_hold_every_value⟩
  case shift => decide
  case pc1 => exact ⟨by decide, by decide⟩
  case pc2 => exact ⟨by decide, by decide, by decide, by decide⟩
  case pbox => decide
  case expansion => decide

end Sys2Proof.Machine
end

section
/-! One command after another (R54, R116). -/

namespace Sys2Proof.Machine

/-- A reader's answer in one piece: its result with KV = 1, NO_KEY with KV = 0 (R95). -/
theorem requireKey_respond (f : KeyStore → Block) (s : State) :
    requireKey (fun u => respond statusOk (f u.ks) u) s =
      .next (s.answered (if s.kv then statusOk else statusNoKey) (if s.kv then f s.ks else 0)) := by
  cases hkv : s.kv with
  | true => exact requireKey_of_key hkv
  | false => exact requireKey_of_no_key hkv

/-- Settles O38: by the three kinds of command. A KEYGEN answers from its key alone; any other leaves the KV and KS that it answered
from. -/
theorem repeatingACommandRepeatsItsResponse : Obligations.RepeatingACommandRepeatsItsResponse := by
  intro i s t h
  rcases exec_kinds i with ⟨idx, key, rfl⟩ | ⟨-, ⟨f, hf⟩ | hf⟩
  · cases h
    exact ⟨_, rfl, rfl⟩
  · rw [hf, requireKey_respond] at h
    cases h
    exact ⟨_, (hf _).trans (requireKey_respond f _), rfl⟩
  · rw [hf] at h
    cases h
    exact ⟨_, hf _, rfl⟩

/-- The entry RDKEY reads of a key's schedule: every index names one of its sixteen (R62, R76). -/
theorem keyOperand_keySchedule (key : Block) (idx : BitVec 4) :
    keyOperand (keySchedule key) idx = roundKey key (idx.toNat + 1) := by
  rw [keyOperand_eq_storeAt, storeAt_keySchedule key idx.isLt]

/-- Settles O39: KEYGEN leaves KV = 1 and the whole schedule, which is what the two readers answer from. -/
theorem keygenIsSeenByTheNextCommand : Obligations.KeygenIsSeenByTheNextCommand := by
  intro s idx idx' key data
  have hkv : ((s.loadKeys (keySchedule key)).answered statusOk 0).kv = true := rfl
  exact ⟨_, _, _, execKeygen_eq idx key s, execEncrypt_of_key idx' data hkv, rfl, rfl, execRdkey_of_key idx' data hkv, rfl,
    congrArg zext64 (keyOperand_keySchedule key idx')⟩

end Sys2Proof.Machine
end

section
/-! Decoding and encoding of command words by their fields (R60 to R65). -/

namespace Sys2Proof

/-- Decoding reads the fields that were packed. -/
theorem decodeWord_packWord (op : BitVec 3) (idx : BitVec 4) (data : Block) :
    decodeWord (packWord op idx data) = decodeFields op idx data := by
  rw [decodeWord, opField_packWord, idxField_packWord, dataField_packWord]

/-- The opcode map of R61 inverts the table that the encoder reads, ILLEGAL under its well-formedness. -/
theorem decodeFields_of_wf {i : Instr} (h : i.wf = true) : decodeFields i.op i.idx i.data = i := by
  cases i with
  | keygen idx key => rfl
  | encrypt idx block => rfl
  | decrypt idx block => rfl
  | rdkey idx data => rfl
  | illegal op idx data => exact decodeFields_of_reserved h idx data

theorem decodeWord_encodeWord {i : Instr} (h : i.wf = true) : decodeWord (encodeWord i) = i := by
  rw [encodeWord, decodeWord_packWord, decodeFields_of_wf h]

/-- What the opcode map of R61 gives is a command, and its word is the packed fields. -/
theorem decodeFields_is_command (op : BitVec 3) (idx : BitVec 4) (data : Block) :
    (decodeFields op idx data).wf = true ∧ encodeWord (decodeFields op idx data) = packWord op idx data := by
  rcases op_cases op with ⟨rfl | rfl | rfl | rfl, -⟩ | ⟨hreserved, -⟩
  case inr => rw [decodeFields_of_reserved hreserved]; exact ⟨hreserved, rfl⟩
  all_goals exact ⟨rfl, rfl⟩

theorem wf_decodeWord (w : CmdWord) : (decodeWord w).wf = true := by
  obtain ⟨hwf, -⟩ := decodeFields_is_command (opField w) (idxField w) (dataField w)
  exact hwf

theorem encodeWord_decodeWord (w : CmdWord) : encodeWord (decodeWord w) = w := by
  obtain ⟨-, hword⟩ := decodeFields_is_command (opField w) (idxField w) (dataField w)
  exact hword.trans (packWord_fields w)

/-- A decoded command keeps the op of its word. -/
theorem op_decodeWord (w : CmdWord) : (decodeWord w).op = opField w := by
  obtain ⟨hop, -, -⟩ := Laws.EncodeFields.of_fields (decodeWord w)
  rw [← hop, encodeWord_decodeWord]

theorem encode_of_wf {i : Instr} (h : i.wf = true) : encode i = some (encodeWord i) := if_pos h

/-- Settles O19: the decoder reads back the fields that the encoder packs, and they determine a well-formed command. -/
theorem decodeOfEncodeIsTheCommand : Obligations.DecodeOfEncodeIsTheCommand :=
  fun _ h => ⟨_, encode_of_wf h, decodeWord_encodeWord h⟩

/-- Settles O20: a decoded command keeps the fields of its word, and packing them gives the word. -/
theorem encodeOfDecodeIsTheWord : Obligations.EncodeOfDecodeIsTheWord :=
  fun w => ⟨wf_decodeWord w, (encode_of_wf (wf_decodeWord w)).trans (congrArg some (encodeWord_decodeWord w))⟩

/-- Word bit 70 is the top bit of the op field (R60). -/
theorem msb_opField (w : CmdWord) : (opField w).msb = w.getLsbD 70 := by
  simp [opField, BitVec.msb_eq_getLsbD_last]

/-- A word with a reserved op decodes to ILLEGAL with its own fields. -/
theorem decodeWord_of_reserved {w : CmdWord} (h : (opField w).msb = true) :
    decodeWord w = .illegal (opField w) (idxField w) (dataField w) := decodeFields_of_reserved h _ _

/-- Settles O21: the op of a clause selects the row of the opcode map, and the fields go over as they are. -/
theorem everyWordDecodesByItsOpField : Obligations.EveryWordDecodesByItsOpField := by
  intro w
  refine ⟨?keygen, ?encrypt, ?decrypt, ?rdkey, fun hbit => decodeWord_of_reserved ((msb_opField w).trans hbit)⟩
  all_goals
    intro hop
    rw [decodeWord, opField, hop]
    rfl

/-! The opcode table's masks select on the op field alone. -/

theorem packWord_and (op op' : BitVec 3) (idx idx' : BitVec 4) (data data' : Block) :
    packWord op idx data &&& packWord op' idx' data' = packWord (op &&& op') (idx &&& idx') (data &&& data') :=
  BitVec.and_append.trans (congrArg (· ++ (data &&& data')) BitVec.and_append)

/-- A mask and match in the op field compare the op field under the mask. -/
theorem and_packWord_eq_iff (w : CmdWord) (mask op : BitVec 3) :
    w &&& packWord mask 0 0 = packWord op 0 0 ↔ opField w &&& mask = op := by
  have hmasked : w &&& packWord mask 0 0 = packWord (opField w &&& mask) 0 0 := by
    conv_lhs => rw [← packWord_fields w, packWord_and]
    exact congrArg₂ (packWord _) BitVec.and_zero BitVec.and_zero
  rw [hmasked]
  exact ⟨fun h => by simpa only [opField_packWord] using congrArg opField h, fun h => by rw [h]⟩

/-- The mask of a defined op takes the whole op field. -/
theorem and_opMask_eq_iff (w : CmdWord) (op : BitVec 3) :
    w &&& 0x700000000000000000#71 = packWord op 0 0 ↔ opField w = op := by
  have hall : opField w &&& 0b111#3 = opField w := BitVec.and_allOnes
  exact hall ▸ and_packWord_eq_iff w 0b111#3 op

/-- The mask of the reserved ops takes the top bit of the op field. -/
theorem and_reservedMask_eq_iff (w : CmdWord) :
    w &&& 0x400000000000000000#71 = 0x400000000000000000#71 ↔ (opField w).msb = true := by
  have hmsb : ∀ op : BitVec 3, op &&& 0b100#3 = 0b100#3 ↔ op.msb = true := by decide
  exact (and_packWord_eq_iff w 0b100#3 0b100#3).trans (hmsb _)

/-- Settles O22: a row's mask and match compare the op field, which the decoded command keeps as its op; conversely the op selects
the row by `EveryWordDecodesByItsOpField`. -/
theorem opcodeTableMasksSelectTheCommand : Obligations.OpcodeTableMasksSelectTheCommand := by
  intro w
  obtain ⟨hkeygen, hencrypt, hdecrypt, hrdkey, -⟩ := everyWordDecodesByItsOpField w
  have hop : ∀ i, decodeWord w = i → opField w = i.op := fun i h => h ▸ (op_decodeWord w).symm
  refine ⟨(and_opMask_eq_iff w 0b000#3).trans ⟨fun h => ⟨_, _, hkeygen h⟩, fun ⟨_, _, h⟩ => hop _ h⟩,
    (and_opMask_eq_iff w 0b001#3).trans ⟨fun h => ⟨_, _, hencrypt h⟩, fun ⟨_, _, h⟩ => hop _ h⟩,
    (and_opMask_eq_iff w 0b010#3).trans ⟨fun h => ⟨_, _, hdecrypt h⟩, fun ⟨_, _, h⟩ => hop _ h⟩,
    (and_opMask_eq_iff w 0b011#3).trans ⟨fun h => ⟨_, _, hrdkey h⟩, fun ⟨_, _, h⟩ => hop _ h⟩,
    (and_reservedMask_eq_iff w).trans ⟨fun h => ⟨_, _, _, decodeWord_of_reserved h⟩, fun ⟨op, idx, data, h⟩ => ?illegal⟩⟩
  have hwf : (Instr.illegal op idx data).wf = true := h ▸ wf_decodeWord w
  rw [hop _ h]
  exact hwf

/-- Settles O24: each clause is a closed evaluation of the decoder. -/
theorem sampleWordsDecode : Obligations.SampleWordsDecode := by
  unfold Obligations.SampleWordsDecode
  decide

end Sys2Proof
end

section
/-! The fields that a command ignores (R62, R63, R94). -/

namespace Sys2Proof.Machine

/-- Settles O34: no meaning mentions the fields it ignores, so each pair of answers is one and the same term. -/
theorem ignoredFieldsChangeNothing : Obligations.IgnoredFieldsChangeNothing :=
  fun _ _ _ _ _ _ _ => ⟨rfl, rfl, rfl, rfl, rfl⟩

end Sys2Proof.Machine
end

section
/-! The written forms of R67: nine bytes and 18 hex digits. -/

namespace Sys2Proof

theorem wordOfNat_toNat (w : CmdWord) : wordOfNat w.toNat = some w := by
  rw [wordOfNat, if_pos w.isLt, BitVec.ofNat_toNat, BitVec.setWidth_eq]

/-- A number with a bit above bit 70 is no command word. -/
theorem wordOfNat_of_le {n : Nat} (h : 2 ^ 71 ≤ n) : wordOfNat n = none := if_neg (Nat.not_lt.mpr h)

/-- Reading a digit onto `acc`, with `k` digits still to come, does not lower the least number that can come out. -/
theorem mul_pow_succ_le (acc base v k : Nat) : acc * base ^ (k + 1) ≤ (acc * base + v) * base ^ k := by
  rw [pow_succ', ← Nat.mul_assoc]
  exact Nat.mul_le_mul_right _ (Nat.le_add_right _ _)

/-! Bytes. -/

theorem natOfBytes_append_singleton (bytes : List Byte) (b : Byte) :
    natOfBytes (bytes ++ [b]) = natOfBytes bytes * 256 + b.toNat := List.foldl_concat ..

/-- What has been read so far is the leading part of the number, and bounds it from below. -/
theorem mul_pow_le_foldl_bytes (bytes : List Byte) :
    ∀ acc : Nat, acc * 256 ^ bytes.length ≤ bytes.foldl (fun acc b => acc * 256 + b.toNat) acc := by
  induction bytes with
  | nil => intro acc; simp
  | cons b bytes ih => exact fun acc => (mul_pow_succ_le acc 256 b.toNat bytes.length).trans (ih _)

theorem toNat_writtenByte (w : CmdWord) (k : Nat) : (writtenByte w k).toNat = w.toNat / 2 ^ (64 - 8 * k) % 256 := by
  rw [writtenByte, BitVec.extractLsb'_toNat, BitVec.toNat_setWidth_of_le (by omega), Nat.shiftRight_eq_div_pow]

/-- The first `n` written bytes are the word without its bits below them. -/
theorem natOfBytes_writtenBytes (w : CmdWord) :
    ∀ n ≤ 9, natOfBytes ((List.range n).map (writtenByte w)) = w.toNat / 2 ^ (72 - 8 * n) := by
  intro n
  induction n with
  | zero => intro _; exact (Nat.div_eq_of_lt (by have := w.isLt; omega)).symm
  | succ n ih =>
    intro hn
    have hpow : 2 ^ (72 - 8 * n) = 2 ^ (64 - 8 * n) * 256 := by
      rw [show 72 - 8 * n = 64 - 8 * n + 8 by omega]
      exact pow_add 2 _ 8
    rw [List.range_succ, List.map_append, List.map_singleton, natOfBytes_append_singleton, ih (by omega),
      toNat_writtenByte, hpow, ← Nat.div_div_eq_div_mul, show 72 - 8 * (n + 1) = 64 - 8 * n by omega]
    exact Nat.div_add_mod' _ 256

theorem decodeBytes_of_length_ne {bytes : List Byte} (h : bytes.length ≠ 9) : decodeBytes bytes = .error .wrongLength :=
  if_neg h

theorem decodeBytes_encodeBytes {i : Instr} (h : i.wf = true) : decodeBytes (encodeBytes i) = .ok i := by
  have hnat : natOfBytes (encodeBytes i) = (encodeWord i).toNat :=
    (natOfBytes_writtenBytes (encodeWord i) 9 le_rfl).trans (Nat.div_one _)
  have hlength : (encodeBytes i).length = 9 := by simp [encodeBytes]
  rw [decodeBytes, if_pos hlength, hnat, wordOfNat_toNat]
  exact congrArg Except.ok (decodeWord_encodeWord h)

/-- Nine bytes with bit 71 set are no command word (R67). -/
theorem decodeBytes_of_msb {b : Byte} {rest : List Byte} (hrest : rest.length = 8) (hb : b.msb = true) :
    decodeBytes (b :: rest) = .error .notACommandWord := by
  have hfirst : 2 ^ 8 ≤ 2 * b.toNat := BitVec.msb_eq_true_iff_two_mul_ge.mp hb
  have hle : 2 ^ 71 ≤ natOfBytes (b :: rest) := by
    have hlead := mul_pow_le_foldl_bytes rest (0 * 256 + b.toNat)
    rw [hrest] at hlead
    exact le_trans (by omega) hlead
  have hlength : (b :: rest).length = 9 := congrArg (· + 1) hrest
  rw [decodeBytes, if_pos hlength, wordOfNat_of_le hle]

end Sys2Proof
end

section
/-! Digits of the written forms, read and written (R67, R68). -/

namespace Sys2Proof.Machine.Asm

theorem readDigits_cons {digit : Char → Option Nat} {base acc v : Nat} {ch : Char} (h : digit ch = some v) (chs : List Char) :
    readDigits digit base acc (ch :: chs) = readDigits digit base (acc * base + v) chs := by
  rw [readDigits, h]

theorem readDigits_append (digit : Char → Option Nat) (base : Nat) (front back : List Char) :
    ∀ acc, readDigits digit base acc (front ++ back) =
      (readDigits digit base acc front).bind fun v => readDigits digit base v back := by
  induction front with
  | nil => intro acc; rfl
  | cons ch front ih =>
    intro acc
    cases hdigit : digit ch with
    | none => simp [readDigits, hdigit]
    | some v => rw [List.cons_append, readDigits_cons hdigit, readDigits_cons hdigit, ih]

/-- The same bound as for bytes, for any digits that can be read. -/
theorem mul_pow_le_of_readDigits {digit : Char → Option Nat} {base n : Nat} (chs : List Char) :
    ∀ acc, readDigits digit base acc chs = some n → acc * base ^ chs.length ≤ n := by
  induction chs with
  | nil =>
    intro acc h
    cases h
    simp
  | cons ch chs ih =>
    intro acc h
    cases hdigit : digit ch with
    | none => simp [readDigits, hdigit] at h
    | some v =>
      rw [readDigits_cons hdigit] at h
      exact (mul_pow_succ_le acc base v chs.length).trans (ih _ h)

theorem hexDigit_hexChar : ∀ n < 16, hexDigit (hexChar n) = some n := by decide

theorem length_hexOf (k : Nat) : ∀ n, (hexOf k n).length = k := by
  induction k with
  | zero => intro n; rfl
  | succ k ih => intro n; rw [hexOf, List.length_append, ih, List.length_singleton]

theorem isSome_hexDigit_of_mem_hexOf {ch : Char} (k : Nat) : ∀ n, ch ∈ hexOf k n → (hexDigit ch).isSome = true := by
  induction k with
  | zero => intro n h; cases h
  | succ k ih =>
    intro n h
    rcases List.mem_append.mp h with hfront | hlast
    · exact ih _ hfront
    · rw [List.mem_singleton.mp hlast, hexDigit_hexChar _ (Nat.mod_lt _ (by decide))]
      rfl

/-- Reading `k` hex digits gives back the number below `16 ^ k` that they were written from. -/
theorem readDigits_hexOf (k : Nat) : ∀ n, readDigits hexDigit 16 0 (hexOf k n) = some (n % 16 ^ k) := by
  induction k with
  | zero => intro n; rw [Nat.pow_zero, Nat.mod_one]; rfl
  | succ k ih =>
    intro n
    rw [hexOf, readDigits_append, ih, Option.bind_some, readDigits_cons (hexDigit_hexChar _ (Nat.mod_lt _ (by decide))),
      readDigits, pow_succ', Nat.mod_mul, Nat.add_comm, Nat.mul_comm]

theorem length_hexForm (w : CmdWord) : (hexForm w).length = 18 := length_hexOf 18 _

theorem readHexForm_hexForm (w : CmdWord) : readHexForm (hexForm w) = some w := by
  have hsmall : w.toNat % 16 ^ 18 = w.toNat := Nat.mod_eq_of_lt (lt_trans w.isLt (by decide))
  rw [readHexForm, if_pos (length_hexForm w), hexForm, readDigits_hexOf, hsmall]
  exact wordOfNat_toNat w

theorem readHexForm_of_length_ne {text : List Char} (h : text.length ≠ 18) : readHexForm text = none := if_neg h

/-- A first digit above 7 sets bit 71, which no command word has (R67). -/
theorem readHexForm_of_first_digit {ch : Char} {v : Nat} (hch : hexDigit ch = some v) (hv : 7 < v) (rest : List Char) :
    readHexForm (ch :: rest) = none := by
  by_cases hlength : (ch :: rest).length = 18
  · have hrest : rest.length = 17 := Nat.succ.inj hlength
    rw [readHexForm, if_pos hlength, readDigits_cons hch]
    cases hread : readDigits hexDigit 16 (0 * 16 + v) rest with
    | none => rfl
    | some n =>
      have hlead := mul_pow_le_of_readDigits rest _ hread
      rw [hrest] at hlead
      exact wordOfNat_of_le (by omega)
  · exact readHexForm_of_length_ne hlength

end Sys2Proof.Machine.Asm

namespace Sys2Proof

/-- Settles O23, form by form: what is written reads back, and the refusals. -/
theorem writtenFormsReadBack : Obligations.WrittenFormsReadBack :=
  ⟨fun _ h => decodeBytes_encodeBytes h, fun _ h => decodeBytes_of_length_ne h,
    fun _ _ hrest hb => decodeBytes_of_msb hrest hb,
    fun w => ⟨Machine.Asm.length_hexForm w, Machine.Asm.readHexForm_hexForm w⟩,
    fun _ h => Machine.Asm.readHexForm_of_length_ne h,
    fun _ rest _ hch hv => Machine.Asm.readHexForm_of_first_digit hch hv rest⟩

end Sys2Proof
end

section
/-! Assembler lines (R68): a line is its words, and each word is read by the operand reader of its place. -/

namespace Sys2Proof.Machine.Asm

/-! The words of a line. -/

/-- A character that neither parts words nor starts a comment. -/
def isPlain (ch : Char) : Bool := ch != ' ' && ch != '\t' && ch != ';'

/-- What `splitWords` and `stripComment` leave in one piece. -/
def IsWord (word : List Char) : Prop := word ≠ [] ∧ ∀ ch ∈ word, isPlain ch = true

theorem not_blank_of_isPlain {ch : Char} (h : isPlain ch = true) : ¬(ch = ' ' ∨ ch = '\t') := by
  rintro (rfl | rfl) <;> exact absurd h (by decide)

theorem ne_semicolon_of_isPlain {ch : Char} (h : isPlain ch = true) : (ch != ';') = true := by
  obtain ⟨-, hsemicolon⟩ := Bool.and_eq_true_iff.mp h
  exact hsemicolon

theorem splitWords_plain {ch : Char} (h : isPlain ch = true) (word chs : List Char) :
    splitWords word (ch :: chs) = splitWords (ch :: word) chs := by
  cases word with
  | nil => rw [splitWords, if_neg (not_blank_of_isPlain h)]
  | cons last front => rw [splitWords, if_neg (not_blank_of_isPlain h)]; exact List.cons_ne_nil _ _

/-- Plain characters are taken into the word being read, last character first. -/
theorem splitWords_append {front : List Char} (hfront : ∀ ch ∈ front, isPlain ch = true) (rest : List Char) :
    ∀ word, splitWords word (front ++ rest) = splitWords (front.reverse ++ word) rest := by
  induction front with
  | nil => intro word; rfl
  | cons ch front ih =>
    intro word
    obtain ⟨hch, hfront'⟩ := List.forall_mem_cons.mp hfront
    rw [List.cons_append, splitWords_plain hch, ih hfront', List.reverse_cons, List.append_assoc, List.singleton_append]

/-- A word at the end of a line. -/
theorem splitWords_word {word : List Char} (h : IsWord word) : splitWords [] word = [word] := by
  obtain ⟨hne, hplain⟩ := h
  have hsplit := splitWords_append hplain [] []
  rw [List.append_nil, List.append_nil] at hsplit
  rw [hsplit, splitWords, List.reverse_reverse]
  exact mt List.reverse_eq_nil_iff.mp hne

/-- A word with a blank behind it. -/
theorem splitWords_word_blank {word : List Char} (h : IsWord word) (rest : List Char) :
    splitWords [] (word ++ ' ' :: rest) = word :: splitWords [] rest := by
  obtain ⟨hne, hplain⟩ := h
  rw [splitWords_append hplain, List.append_nil, splitWords, if_pos (.inl rfl), List.reverse_reverse]
  exact mt List.reverse_eq_nil_iff.mp hne

theorem stripComment_append {front : List Char} (hfront : ∀ ch ∈ front, isPlain ch = true) (rest : List Char) :
    stripComment (front ++ rest) = front ++ stripComment rest :=
  List.takeWhile_append_of_pos fun ch hch => ne_semicolon_of_isPlain (hfront ch hch)

theorem stripComment_word {word : List Char} (h : IsWord word) : stripComment word = word :=
  List.takeWhile_eq_self_iff.mpr fun ch hch => ne_semicolon_of_isPlain (h.2 ch hch)

theorem stripComment_blank (rest : List Char) : stripComment (' ' :: rest) = ' ' :: stripComment rest := rfl

/-- A comment adds nothing, whether or not the line before it holds another. -/
theorem stripComment_comment (line comment : List Char) : stripComment (line ++ ';' :: comment) = stripComment line := by
  have hcomment : (';' :: comment).takeWhile (fun ch => ch != ';') = [] := rfl
  rw [stripComment, List.takeWhile_append, hcomment, List.append_nil]
  split_ifs with hlength
  · exact ((List.takeWhile_sublist _).eq_of_length hlength).symm
  · rfl

/-- Words joined by single blanks are the words of the line. -/
theorem splitWords_stripComment_intercalate (words : List (List Char)) :
    (∀ word ∈ words, IsWord word) → splitWords [] (stripComment ([' '].intercalate words)) = words := by
  induction words with
  | nil => intro _; rfl
  | cons word words ih =>
    intro h
    obtain ⟨hword, hwords⟩ := List.forall_mem_cons.mp h
    cases words with
    | nil => rw [List.intercalate_singleton, stripComment_word hword, splitWords_word hword]
    | cons next words =>
      rw [List.intercalate_cons_cons, List.append_assoc, List.singleton_append, stripComment_append hword.2,
        stripComment_blank, splitWords_word_blank hword, ih hwords]

/-! Operands are words, and are read as the numbers they were written from. -/

/-- A class of characters without the blanks and the semicolon is plain. -/
theorem isPlain_of_class {inClass : Char → Bool} {ch : Char} (h : inClass ch = true) (hspace : inClass ' ' = false)
    (htab : inClass '\t' = false) (hsemicolon : inClass ';' = false) : isPlain ch = true := by
  have hne : ∀ other, inClass other = false → (ch != other) = true := fun other hother =>
    bne_iff_ne.mpr fun heq => by rw [heq, hother] at h; cases h
  rw [isPlain, hne _ hspace, hne _ htab, hne _ hsemicolon]
  rfl

theorem isWord_dataOperand {digits : List Char} (h : ∀ ch ∈ digits, (hexDigit ch).isSome = true) :
    IsWord ('0' :: 'x' :: digits) := by
  have hdigits : ∀ ch ∈ digits, isPlain ch = true := fun ch hch =>
    isPlain_of_class (inClass := fun ch => (hexDigit ch).isSome) (h ch hch) (by decide) (by decide) (by decide)
  exact ⟨List.cons_ne_nil _ _, List.forall_mem_cons.mpr ⟨by decide, List.forall_mem_cons.mpr ⟨by decide, hdigits⟩⟩⟩

theorem isWord_toDigits (n : Nat) : IsWord (Nat.toDigits 10 n) :=
  ⟨Nat.toDigits_ne_nil, fun _ hch =>
    isPlain_of_class (Nat.isDigit_of_mem_toDigits (by decide) le_rfl hch) (by decide) (by decide) (by decide)⟩

theorem decDigit_of_isDigit {ch : Char} (h : ch.isDigit = true) : decDigit ch = some (ch.toNat - 48) :=
  if_pos (Char.isDigit_iff_toNat.mp h)

/-- Reading decimal digits is the library's reading of them. -/
theorem readDigits_decDigit (chs : List Char) : (∀ ch ∈ chs, ch.isDigit = true) → ∀ acc,
    readDigits decDigit 10 acc chs = some (Nat.ofDigitChars 10 chs acc) := by
  induction chs with
  | nil => intro _ acc; rfl
  | cons ch chs ih =>
    intro h acc
    obtain ⟨hch, hchs⟩ := List.forall_mem_cons.mp h
    rw [readDigits_cons (decDigit_of_isDigit hch), ih hchs, Nat.ofDigitChars_cons, Nat.mul_comm]
    rfl

theorem readNumber_toDigits (top n : Nat) :
    readNumber top (Nat.toDigits 10 n) = if n ≤ top then .ok n else .error .numberOutOfRange := by
  have hread : readDigits decDigit 10 0 (Nat.toDigits 10 n) = some n := by
    rw [readDigits_decDigit _ (fun _ hch => Nat.isDigit_of_mem_toDigits (by decide) le_rfl hch), Nat.ofDigitChars_ten_toDigits]
  rw [readNumber, hread]
  exact Nat.toDigits_ne_nil

theorem readBlock_hexOf (data : Block) : readBlock ('0' :: 'x' :: hexOf 16 data.toNat) = .ok data := by
  have hread : readDigits hexDigit 16 0 (hexOf 16 data.toNat) = some data.toNat := by
    rw [readDigits_hexOf]
    exact congrArg some (Nat.mod_eq_of_lt data.isLt)
  rw [readBlock, if_pos (length_hexOf 16 _), hread]
  exact congrArg Except.ok ((BitVec.ofNat_toNat 64 data).trans (BitVec.setWidth_eq data))

theorem readBlock_of_length_ne {digits : List Char} (h : digits.length ≠ 16) :
    readBlock ('0' :: 'x' :: digits) = .error .notSixteenHexDigits := if_neg h

/-- The operands of `.word` are checked from the first to the last, so a number out of range is named before the data is read. -/
theorem wordCommand_toDigits (op idx : Nat) (block : List Char) :
    wordCommand [Nat.toDigits 10 op, Nat.toDigits 10 idx, block] =
      if op ≤ 7 ∧ idx ≤ 15 then
        (readBlock block).map fun data => .command (packWord (BitVec.ofNat 3 op) (BitVec.ofNat 4 idx) data)
      else .error .numberOutOfRange := by
  rw [wordCommand, readNumber_toDigits, readNumber_toDigits]
  by_cases hop : op ≤ 7
  · by_cases hidx : idx ≤ 15
    · rw [if_pos hop, if_pos hidx, if_pos ⟨hop, hidx⟩]
      cases readBlock block <;> rfl
    · rw [if_pos hop, if_neg hidx, if_neg (fun h : op ≤ 7 ∧ idx ≤ 15 => hidx h.2)]
  · rw [if_neg hop, if_neg (fun h : op ≤ 7 ∧ idx ≤ 15 => hop h.1)]

/-! Lines. -/

/-- The mnemonics of R68, each with the reader of its operands. -/
def mnemonics : List (List Char × (List (List Char) → Except AsmError Move)) :=
  [(['K', 'E', 'Y', 'G', 'E', 'N'], dataCommand 0b000#3), (['E', 'N', 'C', 'R', 'Y', 'P', 'T'], dataCommand 0b001#3),
    (['D', 'E', 'C', 'R', 'Y', 'P', 'T'], dataCommand 0b010#3), (['R', 'D', 'K', 'E', 'Y'], rdkeyCommand),
    (['.', 'w', 'o', 'r', 'd'], wordCommand), (['R', 'E', 'S', 'E', 'T'], resetLine)]

/-- A line of a mnemonic and its operands is what that mnemonic's reader makes of them. -/
theorem assembleLine_intercalate {name : List Char} {reader : List (List Char) → Except AsmError Move}
    (hname : (name, reader) ∈ mnemonics) {operands : List (List Char)} (hoperands : ∀ operand ∈ operands, IsWord operand) :
    assembleLine ([' '].intercalate (name :: operands)) = (reader operands).map some := by
  simp only [mnemonics, List.mem_cons, Prod.mk.injEq, List.not_mem_nil, or_false] at hname
  rcases hname with ⟨rfl, rfl⟩ | ⟨rfl, rfl⟩ | ⟨rfl, rfl⟩ | ⟨rfl, rfl⟩ | ⟨rfl, rfl⟩ | ⟨rfl, rfl⟩
  all_goals
    rw [assembleLine, splitWords_stripComment_intercalate _
      (List.forall_mem_cons.mpr ⟨⟨List.cons_ne_nil _ _, List.all_eq_true.mp rfl⟩, hoperands⟩)]
    rfl

theorem assembleLine_one_operand {name operand : List Char} {reader : List (List Char) → Except AsmError Move}
    (hname : (name, reader) ∈ mnemonics) (hoperand : IsWord operand) :
    assembleLine (name ++ ' ' :: operand) = (reader [operand]).map some := by
  rw [← assembleLine_intercalate hname (List.forall_mem_singleton.mpr hoperand), List.intercalate_cons_cons,
    List.intercalate_singleton, List.append_assoc, List.singleton_append]

theorem assembleLine_data_operand {name digits : List Char} {reader : List (List Char) → Except AsmError Move}
    (hname : (name, reader) ∈ mnemonics) (hdigits : ∀ ch ∈ digits, (hexDigit ch).isSome = true) :
    assembleLine (name ++ [' ', '0', 'x'] ++ digits) = (reader ['0' :: 'x' :: digits]).map some := by
  rw [← assembleLine_one_operand hname (isWord_dataOperand hdigits), List.append_assoc]
  rfl

theorem assembleLine_block {name : List Char} {op : BitVec 3} (hname : (name, dataCommand op) ∈ mnemonics) (data : Block) :
    assembleLine (name ++ [' ', '0', 'x'] ++ hexOf 16 data.toNat) = .ok (some (.command (packWord op 0 data))) := by
  rw [assembleLine_data_operand hname (fun _ hch => isSome_hexDigit_of_mem_hexOf 16 _ hch), dataCommand, readBlock_hexOf]
  rfl

theorem assembleLine_not_sixteen_digits {name : List Char} {op : BitVec 3} (hname : (name, dataCommand op) ∈ mnemonics)
    {digits : List Char} (hlength : digits.length ≠ 16) (hdigits : ∀ ch ∈ digits, (hexDigit ch).isSome = true) :
    assembleLine (name ++ [' ', '0', 'x'] ++ digits) = .error .notSixteenHexDigits := by
  rw [assembleLine_data_operand hname hdigits, dataCommand, readBlock_of_length_ne hlength]
  rfl

theorem assembleLine_rdkey (n : Nat) :
    assembleLine (['R', 'D', 'K', 'E', 'Y', ' '] ++ Nat.toDigits 10 n) =
      if n ≤ 15 then .ok (some (.command (packWord 0b011#3 (BitVec.ofNat 4 n) 0))) else .error .numberOutOfRange := by
  have hline := assembleLine_one_operand (name := ['R', 'D', 'K', 'E', 'Y']) (reader := rdkeyCommand) (by simp [mnemonics])
    (isWord_toDigits n)
  rw [rdkeyCommand, readNumber_toDigits] at hline
  refine hline.trans ?_
  split_ifs <;> rfl

theorem assembleLine_dotWord (op idx : Nat) {digits : List Char} (hdigits : ∀ ch ∈ digits, (hexDigit ch).isSome = true) :
    assembleLine (['.', 'w', 'o', 'r', 'd', ' '] ++ Nat.toDigits 10 op ++ [' '] ++ Nat.toDigits 10 idx ++ [' ', '0', 'x'] ++
      digits) = (wordCommand [Nat.toDigits 10 op, Nat.toDigits 10 idx, '0' :: 'x' :: digits]).map some := by
  have hwords : ∀ word ∈ [Nat.toDigits 10 op, Nat.toDigits 10 idx, '0' :: 'x' :: digits], IsWord word := by
    simp [isWord_toDigits, isWord_dataOperand hdigits]
  rw [← assembleLine_intercalate (name := ['.', 'w', 'o', 'r', 'd']) (by simp [mnemonics]) hwords]
  simp

/-- Settles O25: a line is its words, its mnemonic picks the reader, and each operand reads back or is refused. -/
theorem assemblerLinesGiveTheirWords : Obligations.AssemblerLinesGiveTheirWords := by
  have hkeygen : (['K', 'E', 'Y', 'G', 'E', 'N'], dataCommand 0b000#3) ∈ mnemonics := by simp [mnemonics]
  have hencrypt : (['E', 'N', 'C', 'R', 'Y', 'P', 'T'], dataCommand 0b001#3) ∈ mnemonics := by simp [mnemonics]
  have hdecrypt : (['D', 'E', 'C', 'R', 'Y', 'P', 'T'], dataCommand 0b010#3) ∈ mnemonics := by simp [mnemonics]
  have hhex : ∀ data : Block, ∀ ch ∈ hexOf 16 data.toNat, (hexDigit ch).isSome = true :=
    fun _ _ hch => isSome_hexDigit_of_mem_hexOf 16 _ hch
  have hrange : ∀ op ∈ List.range 8, ∀ idx ∈ List.range 16, op ≤ 7 ∧ idx ≤ 15 := fun _ hop _ hidx =>
    ⟨Nat.le_of_lt_succ (List.mem_range.mp hop), Nat.le_of_lt_succ (List.mem_range.mp hidx)⟩
  refine ⟨fun data => ⟨assembleLine_block hkeygen data, assembleLine_block hencrypt data, assembleLine_block hdecrypt data⟩,
    ?rdkey, ?word, by decide, ?comment, fun digits hlength hdigits => ⟨assembleLine_not_sixteen_digits hkeygen hlength hdigits,
      assembleLine_not_sixteen_digits hencrypt hlength hdigits, assembleLine_not_sixteen_digits hdecrypt hlength hdigits,
      ?wordDigits⟩, ?rdkeyRange, ?wordRange⟩
  case rdkey =>
    intro n hn
    rw [assembleLine_rdkey, if_pos (Nat.le_of_lt_succ (List.mem_range.mp hn))]
  case word =>
    intro op hop idx hidx data
    rw [assembleLine_dotWord op idx (hhex data), wordCommand_toDigits, if_pos (hrange op hop idx hidx), readBlock_hexOf]
    rfl
  case comment =>
    intro line comment
    rw [assembleLine, stripComment_comment, ← assembleLine]
  case wordDigits =>
    intro op hop idx hidx
    rw [assembleLine_dotWord op idx hdigits, wordCommand_toDigits, if_pos (hrange op hop idx hidx), readBlock_of_length_ne hlength]
    rfl
  case rdkeyRange =>
    intro n hn
    rw [assembleLine_rdkey, if_neg (Nat.not_le.mpr hn)]
  case wordRange =>
    intro op idx data hlarge
    have hout : ¬(op ≤ 7 ∧ idx ≤ 15) := by omega
    rw [assembleLine_dotWord op idx (hhex data), wordCommand_toDigits, if_neg hout]
    rfl

end Sys2Proof.Machine.Asm
end

section
/-! The key schedule by positions (R70 to R73): a rotation moves a position on within its half, so each round-key position is one
position of the master key, and what the schedule keeps (R74) is read off that. -/

namespace Sys2Proof.Machine

/-- Permuted Choice 1 is split without loss (R70). -/
theorem join_keyStart (key : Block) : (keyStart key).join = permute 56 Rom.pc1 key := by
  show (permute 56 Rom.pc1 key).extractLsb' 28 28 ++ (permute 56 Rom.pc1 key).extractLsb' 0 28 = permute 56 Rom.pc1 key
  rw [BitVec.extractLsb'_append_extractLsb'_eq_extractLsb' (by decide)]
  exact BitVec.extractLsb'_eq_self

/-- Settles O6: the split of R70 is undone by the join, and the other clauses are the recursion of R71 and the entries of R73. -/
theorem keyScheduleRunsItsSixteenRounds : Obligations.KeyScheduleRunsItsSixteenRounds :=
  fun key => ⟨join_keyStart key, fun _ _ => ⟨rfl, rfl⟩, fun _ hi => storeAt_keySchedule key hi⟩

/-! Sequences of halves that SHIFT rotates: C and D of any key are two of them (R71). -/

/-- The halves `v 0` to `v 16` follow from one another by the rotations of SHIFT. -/
def RotatesByShift (v : Nat → HalfKey) : Prop := ∀ i, i < 16 → v (i + 1) = rotl28 (v i) (Rom.shiftAt i)

/-- The number of places the first `n` rounds rotate a half, before it is taken modulo 28. -/
def turnedBy (n : Nat) : Nat := (Rom.shift.take n).sum

theorem shiftAt_eq_one_or_two : ∀ i < 16, Rom.shiftAt i = 1 ∨ Rom.shiftAt i = 2 := by decide

theorem turnedBy_succ : ∀ i < 16, turnedBy (i + 1) = turnedBy i + Rom.shiftAt i := by decide

theorem turnedBy_sixteen : turnedBy 16 = 28 := by decide

theorem rotatesByShift_c (key : Block) : RotatesByShift fun n => (keyHalves key n).c := fun _ _ => rfl

theorem rotatesByShift_d (key : Block) : RotatesByShift fun n => (keyHalves key n).d := fun _ _ => rfl

section
variable {v : Nat → HalfKey} (hv : RotatesByShift v)
include hv

/-- After `n` rounds a position holds what stood `turnedBy n` places further on, cyclically. -/
theorem RotatesByShift.pos_eq {n : Nat} (hn : n ≤ 16) {p : Nat} (h1 : 1 ≤ p) (hp : p ≤ 28) :
    pos (v n) p = pos (v 0) ((p - 1 + turnedBy n) % 28 + 1) := by
  induction n generalizing p with
  | zero =>
    have hstay : (p - 1 + turnedBy 0) % 28 + 1 = p := by
      show (p - 1) % 28 + 1 = p
      omega
    rw [hstay]
  | succ i ih =>
    have hshift := shiftAt_eq_one_or_two i hn
    have hplace : ((p - 1 + Rom.shiftAt i) % 28 + 1 - 1 + turnedBy i) % 28 + 1 = (p - 1 + turnedBy (i + 1)) % 28 + 1 := by
      rw [turnedBy_succ i hn]
      omega
    rw [hv i hn, pos_rotl28 _ (by omega) (by omega) h1 hp, ih (by omega) (by omega) (by omega), hplace]

/-- The sixteen rotations are one full turn. -/
theorem RotatesByShift.sixteen : v 16 = v 0 := by
  apply eq_of_pos_eq
  intro p h1 hp
  have hturn : (p - 1 + 28) % 28 + 1 = p := by omega
  rw [hv.pos_eq le_rfl h1 hp, turnedBy_sixteen, hturn]

/-- A half whose bits are all equal is the same after every round. -/
theorem RotatesByShift.eq_of_constant {a : Bool} (ha : ∀ p, 1 ≤ p → p ≤ 28 → pos (v 0) p = a) {n : Nat} (hn : n ≤ 16) :
    v n = v 0 := by
  apply eq_of_pos_eq
  intro p h1 hp
  rw [hv.pos_eq hn h1 hp, ha p h1 hp, ha _ (by omega) (by omega)]

end

/-- Settles O8: both halves make one full turn. -/
theorem sixteenRotationsReturnTheHalves : Obligations.SixteenRotationsReturnTheHalves :=
  fun key => ⟨(rotatesByShift_c key).sixteen, (rotatesByShift_d key).sixteen⟩

/-! Where a round-key position comes from. -/

/-- The position of `C0 ‖ D0` that stands at position `q` of `C ‖ D` after `n` rounds. -/
def turnedPosition (n q : Nat) : Nat :=
  if q ≤ 28 then (q - 1 + turnedBy n) % 28 + 1 else (q - 29 + turnedBy n) % 28 + 29

/-- The position of the master key that stands at position `k` of round key `n`. -/
def keyPosition (n k : Nat) : Nat := Rom.romRead Rom.pc1 (turnedPosition n (Rom.romRead Rom.pc2 k))

theorem turnedPosition_bounds (n q : Nat) : 1 ≤ turnedPosition n q ∧ turnedPosition n q ≤ 56 := by
  unfold turnedPosition
  split <;> omega

theorem permOk_pc1 : Rom.permOk 56 64 Rom.pc1 = true := by decide

theorem permOk_pc2 : Rom.permOk 48 56 Rom.pc2 = true := by decide

/-- PC1 drops the parity positions (R70). -/
theorem romRead_pc1_not_parity : ∀ k ∈ List.range' 1 56, Rom.romRead Rom.pc1 k % 8 ≠ 0 := by decide

theorem keyPosition_bounds (n k : Nat) : 1 ≤ keyPosition n k ∧ keyPosition n k ≤ 64 := by
  obtain ⟨h1, h56⟩ := turnedPosition_bounds n (Rom.romRead Rom.pc2 k)
  exact romRead_bounds_of_permOk permOk_pc1 h1 h56

theorem keyPosition_not_parity (n k : Nat) : keyPosition n k % 8 ≠ 0 := by
  obtain ⟨h1, h56⟩ := turnedPosition_bounds n (Rom.romRead Rom.pc2 k)
  exact romRead_pc1_not_parity _ (List.mem_range'_1.mpr ⟨h1, by omega⟩)

/-- A rotation of both halves moves each position within its own half. -/
theorem pos_join_keyHalves (key : Block) {n q : Nat} (hn : n ≤ 16) (h1 : 1 ≤ q) (hq : q ≤ 56) :
    pos (keyHalves key n).join q = pos (keyStart key).join (turnedPosition n q) := by
  obtain ⟨hturned, -⟩ := turnedPosition_bounds n q
  rw [KeyHalves.join, KeyHalves.join, pos_append_key _ _ h1, pos_append_key _ _ hturned, turnedPosition]
  split
  case isTrue hc =>
    have hplace : (q - 1 + turnedBy n) % 28 + 1 ≤ 28 := by omega
    rw [if_pos hplace]
    exact (rotatesByShift_c key).pos_eq hn h1 hc
  case isFalse hd =>
    have hplace : ¬(q - 29 + turnedBy n) % 28 + 29 ≤ 28 := by omega
    have hlocal : (q - 29 + turnedBy n) % 28 + 29 - 28 = (q - 28 - 1 + turnedBy n) % 28 + 1 := by omega
    rw [if_neg hplace, hlocal]
    exact (rotatesByShift_d key).pos_eq hn (by omega) (by omega)

/-- PC2, the rotations and PC1, one after another. -/
theorem pos_roundKey (key : Block) {n k : Nat} (hn : n ≤ 16) (h1 : 1 ≤ k) (hk : k ≤ 48) :
    pos (roundKey key n) k = pos key (keyPosition n k) := by
  obtain ⟨hq1, hq56⟩ := romRead_bounds_of_permOk permOk_pc2 h1 hk
  obtain ⟨hturned1, hturned56⟩ := turnedPosition_bounds n (Rom.romRead Rom.pc2 k)
  calc pos (roundKey key n) k
      = pos (keyHalves key n).join (Rom.romRead Rom.pc2 k) := pos_permute Rom.pc2 _ (length_of_permOk permOk_pc2) h1 hk
    _ = pos (keyStart key).join (turnedPosition n (Rom.romRead Rom.pc2 k)) := pos_join_keyHalves key hn hq1 hq56
    _ = pos key (keyPosition n k) := by
      rw [join_keyStart]
      exact pos_permute Rom.pc1 key (length_of_permOk permOk_pc1) hturned1 hturned56

theorem pos_storeAt_keySchedule (key : Block) {i k : Nat} (hi : i < 16) (h1 : 1 ≤ k) (hk : k ≤ 48) :
    pos (storeAt (keySchedule key) i) k = pos key (keyPosition (i + 1) k) := by
  rw [storeAt_keySchedule key hi, pos_roundKey key hi h1 hk]

/-- Settles O7: `keyPosition`, with PC1 read on either side of its case split. -/
theorem everyRoundKeyBitIsOneKeyBit : Obligations.EveryRoundKeyBitIsOneKeyBit := by
  intro key n k hn1 hn h1 hk
  have hround : n - 1 + 1 = n := by omega
  rw [pos_storeAt_keySchedule key (by omega) h1 hk, hround, keyPosition, turnedPosition,
    apply_ite fun q => pos key (Rom.romRead Rom.pc1 q)]
  rfl

/-- Settles O9: no round-key position comes from a parity position. -/
theorem parityPositionsDoNotAffectTheSchedule : Obligations.ParityPositionsDoNotAffectTheSchedule := by
  intro key key' h
  apply eq_of_storeAt_eq
  intro i hi
  apply eq_of_pos_eq
  intro k h1 hk
  obtain ⟨hkey1, hkey64⟩ := keyPosition_bounds (i + 1) k
  rw [pos_storeAt_keySchedule key hi h1 hk, pos_storeAt_keySchedule key' hi h1 hk,
    h _ hkey1 hkey64 (keyPosition_not_parity (i + 1) k)]

/-- Settles O11: a round-key position is complemented with the key position it comes from. -/
theorem complementedKeyComplementsRoundKeys : Obligations.ComplementedKeyComplementsRoundKeys := by
  intro key i hi
  apply eq_of_pos_eq
  intro k h1 hk
  obtain ⟨hkey1, hkey64⟩ := keyPosition_bounds (i + 1) k
  rw [pos_storeAt_keySchedule _ hi h1 hk, pos_not key hkey1 hkey64, pos_not _ h1 hk, pos_storeAt_keySchedule key hi h1 hk]

/-! Constant halves, and the four keys that R74 names. -/

theorem pos_zero {n : Nat} (p : Nat) : pos (0 : BitVec n) p = false := BitVec.getMsbD_zero

theorem keyHalves_eq_of_constant_halves {key : Block} {a b : Bool}
    (hc : ∀ p, 1 ≤ p → p ≤ 28 → pos (keyHalves key 0).c p = a) (hd : ∀ p, 1 ≤ p → p ≤ 28 → pos (keyHalves key 0).d p = b)
    {n : Nat} (hn : n ≤ 16) : keyHalves key n = keyHalves key 0 :=
  congrArg₂ KeyHalves.mk ((rotatesByShift_c key).eq_of_constant hc hn) ((rotatesByShift_d key).eq_of_constant hd hn)

theorem storeAt_keySchedule_zero {i : Nat} (hi : i < 16) : storeAt (keySchedule 0) i = 0 := by
  apply eq_of_pos_eq
  intro k h1 hk
  rw [pos_storeAt_keySchedule 0 hi h1 hk, pos_zero, pos_zero]

/-- The key `0x0101…01` is zero outside the parity positions. -/
theorem pos_parityOnes : ∀ p ∈ List.range' 1 64, p % 8 ≠ 0 → pos (0x0101010101010101 : Block) p = false := by decide

theorem keySchedule_parityOnes : keySchedule 0x0101010101010101 = keySchedule 0 := by
  apply parityPositionsDoNotAffectTheSchedule
  intro p h1 hp hparity
  rw [pos_zero, pos_parityOnes p (List.mem_range'_1.mpr ⟨h1, by omega⟩) hparity]

/-- A key whose entries are all zero has a complement whose entries are all one. -/
theorem storeAt_keySchedule_of_eq_not {key key' : Block} {i : Nat} (hi : i < 16) (h : storeAt (keySchedule key) i = 0)
    (hkey : key' = ~~~key) : storeAt (keySchedule key') i = 0xFFFFFFFFFFFF := by
  rw [hkey, complementedKeyComplementsRoundKeys key i hi, h]
  rfl

/-- Settles O10: rotations do nothing to constant halves. Of the four keys, `0x0101…01` differs from 0 in parity positions only, and
the other two are the complements of these. -/
theorem constantHalvesGiveEqualRoundKeys : Obligations.ConstantHalvesGiveEqualRoundKeys := by
  refine ⟨fun key a b hc hd i j hi hj => ?equal, fun i hi => ?named⟩
  case equal =>
    rw [storeAt_keySchedule key hi, storeAt_keySchedule key hj, roundKey, roundKey, keyHalves_eq_of_constant_halves hc hd hi,
      keyHalves_eq_of_constant_halves hc hd hj]
  case named =>
    have hzero : storeAt (keySchedule 0) i = 0 := storeAt_keySchedule_zero hi
    have hparity : storeAt (keySchedule 0x0101010101010101) i = 0 := by
      rw [keySchedule_parityOnes, hzero]
    exact ⟨hzero, hparity, storeAt_keySchedule_of_eq_not hi hzero (by decide),
      storeAt_keySchedule_of_eq_not hi hparity (by decide)⟩

end Sys2Proof.Machine
end

section
/-! The commands that write and read the subkey store: KEYGEN (R75) and RDKEY (R76). -/

namespace Sys2Proof.Machine

/-- Settles O26: KEYGEN's answer, field by field. -/
theorem keygenStoresTheWholeSchedule : Obligations.KeygenStoresTheWholeSchedule :=
  fun idx key s => ⟨decodeWord_packWord 0b000#3 idx key, _, execKeygen_eq idx key s, rfl, rfl, rfl, rfl, rfl, rfl⟩

/-- Zero extension of a round key: nothing above it, and the key itself below (R8). -/
theorem zext64_high (k : SubKey) : (zext64 k).extractLsb' 48 16 = 0 := by
  apply BitVec.eq_of_getLsbD_eq
  intro i hi
  simp [zext64]

theorem zext64_low (k : SubKey) : (zext64 k).extractLsb' 0 48 = k := by
  rw [zext64, BitVec.extractLsb'_setWidth_of_le (by decide), BitVec.extractLsb'_eq_self]

/-- Settles O27: with KV = 1 the response is the zero-extended operand, which is an entry for every index; with KV = 0 it is
NO_KEY. -/
theorem rdkeyReturnsTheSelectedEntry : Obligations.RdkeyReturnsTheSelectedEntry := by
  intro idx data s
  refine ⟨decodeWord_packWord 0b011#3 idx data, ?_⟩
  cases hkv : s.kv with
  | true =>
    have hentry : s.ks[idx.toNat]? = some ((zext64 (keyOperand s.ks idx)).extractLsb' 0 48) := by
      rw [zext64_low, keyOperand_eq_storeAt, getElem_storeAt s.ks idx.isLt]
    exact ⟨_, execRdkey_of_key idx data hkv, hkv, rfl, rfl, rfl, fun _ => ⟨rfl, zext64_high _, hentry⟩, nofun⟩
  | false => exact ⟨_, execRdkey_of_no_key idx data hkv, hkv, rfl, rfl, rfl, nofun, fun _ => ⟨rfl, rfl⟩⟩

end Sys2Proof.Machine
end

section
/-! The S-box array (R80, R81): row and column of a chunk, and the eight lanes. -/

namespace Sys2Proof.Machine

/-- R80 as vectors: the outer two bits of a chunk are its row, the inner four its column. -/
theorem sRow_sCol_eq_slices : ∀ c : Chunk,
    sRow c = (((c >>> 5) <<< 1) ||| (c &&& 1)).toNat ∧ sCol c = (c.extractLsb' 1 4).toNat := by decide

theorem sRow_le (c : Chunk) : sRow c ≤ 3 := by
  have h0 : chunkBit c 0 ≤ 1 := Bool.toNat_le _
  have h5 : chunkBit c 5 ≤ 1 := Bool.toNat_le _
  rw [sRow]
  omega

theorem sCol_le (c : Chunk) : sCol c ≤ 15 := by
  rw [(sRow_sCol_eq_slices c).2]
  exact Nat.le_of_lt_succ (c.extractLsb' 1 4).isLt

/-- Settles O12: chunk bit `b` is vector bit `5 - b` by definition; the vector forms run over the 64 chunks. -/
theorem sBoxRowAndColumnComeFromTheChunk : Obligations.SBoxRowAndColumnComeFromTheChunk := by
  intro c
  obtain ⟨hrow, hcol⟩ := sRow_sCol_eq_slices c
  exact ⟨rfl, rfl, hrow, hcol, sRow_le c, sCol_le c⟩

/-- Lane `j` writes vector bits `[31-4(j-1) : 28-4(j-1)]` of the array's output (R81). -/
theorem extractLsb'_sArray (x : SubKey) {j : Nat} (h1 : 1 ≤ j) (h8 : j ≤ 8) :
    (sArray x).extractLsb' (28 - 4 * (j - 1)) 4 = sLane j x := by
  apply BitVec.eq_of_getLsbD_eq
  intro i hi
  have hlane : 8 - (28 - 4 * (j - 1) + i) / 4 = j := by omega
  have hbit : (28 - 4 * (j - 1) + i) % 4 = i := by omega
  rw [BitVec.getLsbD_extractLsb', getLsbD_sArray x (by omega), hlane, hbit]
  simp [hi]

/-- A lane reads its own chunk only. -/
theorem sLane_eq_of_chunk_eq {x y : SubKey} {j : Nat} (h : chunk j x = chunk j y) : sLane j x = sLane j y := by
  rw [sLane, sLane, h]

/-- Settles O13: each slice of the output is its lane, which reads its own chunk and ROM. -/
theorem sBoxLanesAreIndependent : Obligations.SBoxLanesAreIndependent := by
  intro x j h1 h8
  refine ⟨extractLsb'_sArray x h1 h8, fun y hchunk => ?_⟩
  rw [extractLsb'_sArray x h1 h8, extractLsb'_sArray y h1 h8]
  exact sLane_eq_of_chunk_eq hchunk

end Sys2Proof.Machine
end

section
/-! The transform and its inverse (R77, R84 to R89): a Feistel round is undone by the same round on the exchanged halves. -/

namespace Sys2Proof.Machine

/-- The exchange of the halves that R86 ends the rounds with. -/
def HalfPair.swap (h : HalfPair) : HalfPair := { l := h.r, r := h.l }

/-- The split of R77 loses nothing. -/
theorem join_initialHalves (block : Block) : (initialHalves block).l ++ (initialHalves block).r = permute 64 Rom.ip block :=
  join_halves _

/-- Settles O14: the join undoes the split, and the other clauses are the recursion of R88 and the entries of the store. -/
theorem transformRunsItsSixteenRounds : Obligations.TransformRunsItsSixteenRounds :=
  fun block ks _ => ⟨join_initialHalves block, fun _ _ => ⟨rfl, rfl⟩, fun _ hi => getElem_storeAt ks hi, rfl⟩

/-- IP undoes IPINV, so splitting a final block gives the halves it was made of, exchanged (R86, R87). -/
theorem initialHalves_finalBlock (h : HalfPair) : initialHalves (finalBlock h) = h.swap := by
  obtain ⟨-, hip⟩ := inverseInitialPermutationUndoesInitial (h.r ++ h.l)
  simp only [initialHalves, finalBlock, hip, high_half_join, low_half_join, HalfPair.swap]

/-- IPINV undoes IP, so the exchanged halves of a block make the block again. -/
theorem finalBlock_swap_initialHalves (block : Block) : finalBlock (initialHalves block).swap = block := by
  obtain ⟨hipinv, -⟩ := inverseInitialPermutationUndoesInitial block
  exact (congrArg (permute 64 Rom.ipinv) (join_initialHalves block)).trans hipinv

/-- A round on the exchanged result of a round with the same key takes the round back: the same value of the round function is
added twice. -/
theorem feistelRound_swap_feistelRound (h : HalfPair) (k : SubKey) : feistelRound (feistelRound h k).swap k = h.swap := by
  simp [feistelRound, HalfPair.swap]

/-- The round keys of one direction are those of the other, read backwards (R85). -/
theorem selectKey_not (ks : KeyStore) (rev : Bool) {i : Nat} (hi : i ≤ 15) :
    selectKey ks (!rev) i = selectKey ks rev (15 - i) := by
  have hback : 15 - (15 - i) = i := by omega
  cases rev <;> simp [selectKey, hback]

/-- R89 item 2 for either direction and any halves: from the exchanged end of sixteen rounds, the other direction runs them
backwards. -/
theorem feistelHalves_backwards (ks : KeyStore) (rev : Bool) (h : HalfPair) {i : Nat} (hi : i ≤ 16) :
    feistelHalves ks (!rev) (feistelHalves ks rev h 16).swap i = (feistelHalves ks rev h (16 - i)).swap := by
  induction i with
  | zero => rfl
  | succ i ih =>
    have hround : 16 - i = 15 - i + 1 := by omega
    have hleft : 16 - (i + 1) = 15 - i := by omega
    rw [feistelHalves, ih (by omega), selectKey_not ks rev (by omega), hround, feistelHalves, feistelRound_swap_feistelRound,
      hleft]

/-- The rounds of the other direction on the transformed block. -/
theorem feistelHalves_transform (block : Block) (ks : KeyStore) (rev : Bool) {i : Nat} (hi : i ≤ 16) :
    feistelHalves ks (!rev) (initialHalves (transform block ks rev)) i =
      (feistelHalves ks rev (initialHalves block) (16 - i)).swap := by
  rw [transform, initialHalves_finalBlock, feistelHalves_backwards ks rev _ hi]

/-- Settles O15: `feistelHalves_transform` for an encryption. -/
theorem decryptionRunsTheRoundsBackwards : Obligations.DecryptionRunsTheRoundsBackwards :=
  fun block ks _ hi => feistelHalves_transform block ks false hi

/-- R89 item 1 for either direction: after sixteen rounds back, the halves are those of the block. -/
theorem transform_transform_not (block : Block) (ks : KeyStore) (rev : Bool) :
    transform (transform block ks rev) ks (!rev) = block := by
  have hback : feistelHalves ks (!rev) (initialHalves (transform block ks rev)) 16 = (initialHalves block).swap :=
    feistelHalves_transform block ks rev le_rfl
  rw [transform, hback, finalBlock_swap_initialHalves]

/-- Settles O16: `transform_transform_not` in its two directions. -/
theorem transformRoundTrip : Obligations.TransformRoundTrip :=
  fun block ks => ⟨transform_transform_not block ks false, transform_transform_not block ks true⟩

/-- The direction matters only through the round keys it selects. -/
theorem feistelHalves_eq_of_selectKey_eq {ks : KeyStore} (hkeys : ∀ i, i < 16 → selectKey ks true i = selectKey ks false i)
    (h : HalfPair) {n : Nat} (hn : n ≤ 16) : feistelHalves ks true h n = feistelHalves ks false h n := by
  induction n with
  | zero => rfl
  | succ i ih => rw [feistelHalves, feistelHalves, ih (by omega), hkeys i hn]

/-- Settles O18: equal entries make the selected keys equal, so the directions agree, and R89 item 1 gives the involution. -/
theorem equalRoundKeysMakeDirectionsAgree : Obligations.EqualRoundKeysMakeDirectionsAgree := by
  intro block ks hequal
  have hkeys : ∀ i, i < 16 → selectKey ks true i = selectKey ks false i := fun i hi =>
    (hequal (15 - i) (by omega)).trans (hequal i hi).symm
  have hagree : ∀ b : Block, transform b ks true = transform b ks false := fun b =>
    congrArg finalBlock (feistelHalves_eq_of_selectKey_eq hkeys (initialHalves b) le_rfl)
  refine ⟨hagree block, ?_⟩
  rw [← hagree]
  exact transform_transform_not block ks false

end Sys2Proof.Machine
end

section
/-! Complementation (R89 item 3): the expansion and the round key are both complemented, so the S-box array sees no change. -/

namespace Sys2Proof.Machine

/-- A permutation moves bits only, so it commutes with the complement. -/
theorem permute_not {m n : Nat} {table : List Nat} (h : Rom.permOk m n table = true) (x : BitVec n) :
    permute m table (~~~x) = ~~~(permute m table x) := by
  apply eq_of_pos_eq
  intro k h1 hk
  obtain ⟨hentry1, hentryn⟩ := romRead_bounds_of_permOk h h1 hk
  have hlength := length_of_permOk h
  rw [pos_not _ h1 hk, pos_permute table _ hlength h1 hk, pos_permute table _ hlength h1 hk]
  exact pos_not x hentry1 hentryn

theorem permOk_expansion : Rom.permOk 48 32 Rom.expansion = true := by decide

/-- Both halves complemented. -/
def HalfPair.compl (h : HalfPair) : HalfPair := { l := ~~~h.l, r := ~~~h.r }

theorem initialHalves_not (block : Block) : initialHalves (~~~block) = (initialHalves block).compl := by
  have hjoin : permute 64 Rom.ip (~~~block) = ~~~(initialHalves block).l ++ ~~~(initialHalves block).r := by
    rw [permute_not permOk_ip, ← join_initialHalves, BitVec.not_append]
  rw [initialHalves, hjoin, HalfPair.compl]
  simp only [high_half_join, low_half_join]

theorem finalBlock_compl (h : HalfPair) : finalBlock h.compl = ~~~(finalBlock h) := by
  rw [finalBlock, finalBlock, HalfPair.compl, ← permute_not permOk_ipinv, BitVec.not_append]

/-- The two complements cancel before the S-boxes. -/
theorem mixKey_not_not (r : Half) (k : SubKey) : mixKey (~~~r) (~~~k) = mixKey r k := by
  rw [mixKey, mixKey, expand, expand, permute_not permOk_expansion, ← BitVec.not_xor_left, ← BitVec.not_xor_right,
    BitVec.not_not]

theorem feistelRound_compl (h : HalfPair) (k : SubKey) : feistelRound h.compl (~~~k) = (feistelRound h k).compl := by
  simp [feistelRound, HalfPair.compl, roundFunction, mixKey_not_not, BitVec.not_xor_left]

/-- Complemented halves under complemented round keys stay complemented, round by round. -/
theorem feistelHalves_compl {ks ks' : KeyStore} (hkeys : ∀ i, i < 16 → storeAt ks' i = ~~~(storeAt ks i)) (h : HalfPair)
    {n : Nat} (hn : n ≤ 16) : feistelHalves ks' false h.compl n = (feistelHalves ks false h n).compl := by
  induction n with
  | zero => rfl
  | succ i ih =>
    have hkey : selectKey ks' false i = ~~~(selectKey ks false i) := hkeys i hn
    rw [feistelHalves, feistelHalves, ih (by omega), hkey, feistelRound_compl]

/-- Settles O17: the complemented key complements every round key, and the complement goes through all stages. -/
theorem transformComplementation : Obligations.TransformComplementation := by
  intro key block
  have hkeys : ∀ i, i < 16 → storeAt (keySchedule (~~~key)) i = ~~~(storeAt (keySchedule key) i) :=
    complementedKeyComplementsRoundKeys key
  rw [transform, transform, initialHalves_not, feistelHalves_compl hkeys _ le_rfl, finalBlock_compl]

end Sys2Proof.Machine
end

section
/-! The commands of the transform: ENCRYPT (R90) and DECRYPT (R91). -/

namespace Sys2Proof.Machine

/-- What a reader of KS answers from every state, register by register: its result with KV = 1, NO_KEY with KV = 0. -/
theorem requireKey_respond_answers (f : KeyStore → Block) (s : State) :
    ∃ t, requireKey (fun u => respond statusOk (f u.ks) u) s = .next t ∧ t.kv = s.kv ∧ t.ks = s.ks ∧ t.rspValid = true ∧
      t.busy = false ∧ (s.kv = true → t.rspStatus = statusOk ∧ t.rspData = f s.ks) ∧
      (s.kv = false → t.rspStatus = statusNoKey ∧ t.rspData = 0) :=
  ⟨_, requireKey_respond f s, rfl, rfl, rfl, rfl, fun hkv => by simp [hkv], fun hkv => by simp [hkv]⟩

/-- Settles O28: ENCRYPT is the reader whose result is the forward transform. -/
theorem encryptRespondsWithTheForwardTransform : Obligations.EncryptRespondsWithTheForwardTransform :=
  fun idx block s =>
    ⟨decodeWord_packWord 0b001#3 idx block, requireKey_respond_answers (fun ks => transform block ks false) s⟩

/-- Settles O29: DECRYPT is the reader whose result is the reverse transform. -/
theorem decryptRespondsWithTheReverseTransform : Obligations.DecryptRespondsWithTheReverseTransform :=
  fun idx block s =>
    ⟨decodeWord_packWord 0b010#3 idx block, requireKey_respond_answers (fun ks => transform block ks true) s⟩

/-- Settles O40: the first answer leaves KV and KS, so the second command undoes the first (R89 item 1). -/
theorem decryptUndoesEncryptThroughCommands : Obligations.DecryptUndoesEncryptThroughCommands := by
  intro s idx idx' block hkv
  have hkv' : ∀ data, (s.answered statusOk data).kv = true := fun _ => hkv
  exact ⟨⟨_, _, execEncrypt_of_key idx block hkv, execDecrypt_of_key idx' _ (hkv' _), rfl,
      transform_transform_not block s.ks false, rfl, rfl⟩,
    ⟨_, _, execDecrypt_of_key idx block hkv, execEncrypt_of_key idx' _ (hkv' _), rfl,
      transform_transform_not block s.ks true, rfl, rfl⟩⟩

end Sys2Proof.Machine
end

section
/-! Errors (R93 to R97): which commands fail, and that a failure leaves no trace. -/

namespace Sys2Proof.Machine

/-- What a command does is settled by its op: `000` loads a key's schedule, the other defined ops are readers, the reserved ops answer
ILLEGAL_OP before KV is looked at (R61, R97). -/
theorem exec_kinds_by_op {i : Instr} (hwf : i.wf = true) :
    (i.op = 0b000#3 ∧ ∃ key, ∀ s, exec i s = .next ((s.loadKeys (keySchedule key)).answered statusOk 0)) ∨
    ((i.op.msb = false ∧ i.op ≠ 0b000#3) ∧
      ∃ f : KeyStore → Block, ∀ s, exec i s = requireKey (fun u => respond statusOk (f u.ks) u) s) ∨
    (i.op.msb = true ∧ ∀ s, exec i s = .next (s.answered statusIllegalOp 0)) := by
  cases i with
  | keygen idx key => exact .inl ⟨rfl, key, execKeygen_eq idx key⟩
  | encrypt idx block =>
    exact .inr (.inl ⟨show (0b001#3).msb = false ∧ 0b001#3 ≠ 0b000#3 by decide, fun ks => transform block ks false, fun _ => rfl⟩)
  | decrypt idx block =>
    exact .inr (.inl ⟨show (0b010#3).msb = false ∧ 0b010#3 ≠ 0b000#3 by decide, fun ks => transform block ks true, fun _ => rfl⟩)
  | rdkey idx data =>
    exact .inr (.inl ⟨show (0b011#3).msb = false ∧ 0b011#3 ≠ 0b000#3 by decide, fun ks => zext64 (keyOperand ks idx), fun _ => rfl⟩)
  | illegal op idx data => exact .inr (.inr ⟨hwf, execIllegal_eq op idx data⟩)

/-- Settles O32: a KEYGEN and a reserved op have one status each, a reader's depends on KV. -/
theorem statusIsDecidedByOpThenKey : Obligations.StatusIsDecidedByOpThenKey := by
  intro i s t hwf h
  rcases exec_kinds_by_op hwf with ⟨hop, key, hexec⟩ | ⟨⟨hmsb, hop⟩, f, hexec⟩ | ⟨hmsb, hexec⟩
  · rw [hexec] at h
    cases h
    simp [hop, statusOk]
  · rw [hexec, requireKey_respond] at h
    cases h
    cases s.kv <;> simp [hmsb, hop, statusOk, statusNoKey]
  · rw [hexec] at h
    cases h
    simp [hmsb, statusIllegalOp]

/-- What a command makes of the architectural state depends on KV and KS alone: the response before it is overwritten unread. -/
theorem exec_arch_eq_of_keys_eq (i : Instr) {s s' : State} (hkv : s'.kv = s.kv) (hks : s'.ks = s.ks) :
    ∃ u v, exec i s = .next u ∧ exec i s' = .next v ∧ v.arch = u.arch := by
  rcases exec_kinds i with ⟨idx, key, rfl⟩ | ⟨-, ⟨f, hf⟩ | hf⟩
  · exact ⟨_, _, execKeygen_eq idx key s, execKeygen_eq idx key s', rfl⟩
  · refine ⟨_, _, (hf s).trans (requireKey_respond f s), (hf s').trans (requireKey_respond f s'), ?_⟩
    simp [State.arch, hkv, hks]
  · refine ⟨_, _, hf s, hf s', ?_⟩
    simp [State.arch, hkv, hks]

/-- A command that reports an error leaves KV and KS (R96): it is no KEYGEN, which reports OK. -/
theorem exec_error_keeps_keys {j : Instr} {s t : State} (h : exec j s = .next t) (herror : t.rspStatus ≠ statusOk) :
    t.kv = s.kv ∧ t.ks = s.ks := by
  obtain ⟨-, -, ⟨_, _, -, -, -, hok, -⟩ | ⟨-, hkv, hks, -⟩⟩ := commandsWriteOnlyTheirTableRow j s t h
  · exact absurd hok herror
  · exact ⟨hkv, hks⟩

/-- Settles O36: the error leaves KV and KS, and the next command reads nothing else. -/
theorem errorsLeaveNoTrace : Obligations.ErrorsLeaveNoTrace := by
  intro i j s t h herror
  obtain ⟨hkv, hks⟩ := exec_error_keeps_keys h herror
  exact exec_arch_eq_of_keys_eq i hkv hks

/-- Settles O30: a reserved op selects no row of the opcode map, and ILLEGAL's answer looks at nothing. -/
theorem reservedOpRespondsIllegal : Obligations.ReservedOpRespondsIllegal :=
  fun op idx data s hwf =>
    ⟨(decodeWord_packWord op idx data).trans (decodeFields_of_reserved hwf idx data), _, execIllegal_eq op idx data s,
      rfl, rfl, rfl, rfl, rfl, rfl⟩

/-- Settles O31: the three commands have one and the same answer with KV = 0. -/
theorem noKeyRejectsTheThreeReaders : Obligations.NoKeyRejectsTheThreeReaders := by
  intro i idx data s hi hkv
  have hanswer : exec i s = .next (s.answered statusNoKey 0) := by
    rcases hi with rfl | rfl | rfl
    · exact execEncrypt_of_no_key idx data hkv
    · exact execDecrypt_of_no_key idx data hkv
    · exact execRdkey_of_no_key idx data hkv
  exact ⟨_, hanswer, rfl, rfl, rfl, rfl⟩

end Sys2Proof.Machine
end

section
/-! The edge of an idle core (R106, R112). -/

namespace Sys2Proof.Machine

/-- While no word stands the inputs are free (R112). -/
theorem allows_of_not_standing {o : Offer} (h : ∀ w, o ≠ .standing w) (p : Pins) : o.allows p = true := by
  cases o with
  | nothing => rfl
  | standing w => exact absurd rfl (h w)
  | leftHigh => rfl

/-- The edge at which no command is in flight and none is raised, at pins that keep the duty. -/
theorem step_idle {s : State} (hb : s.busy = false) (hr : s.nextPins.rst = false) (hv : s.nextPins.cmdValid = false)
    (hd : breaksDuty s s.nextPins = false) : step s = .next s.dropPins.idleEdge := by
  have hd' : breaksDuty s.dropPins s.nextPins = false := hd
  simp [step, clockEdge, accepts, hr, hd', hb, hv]

/-- Settles O53: with no word standing quiet pins keep the duty, so the edge is the idle one. -/
theorem idleCoreHoldsItsState : Obligations.IdleCoreHoldsItsState := by
  intro s hb hstanding hr hv
  have hd : breaksDuty s s.nextPins = false := by simp [breaksDuty, allows_of_not_standing hstanding]
  exact step_idle hb hr hv hd

end Sys2Proof.Machine
end

section
/-! A command word at the transaction level: what the meaning of the decoded word does to the architectural state is the case
list of R120. -/

namespace Sys2Proof.Machine

/-- A reader of KS commits its branch of R120: NO_KEY with KV = 0, else its result. -/
theorem execWord_arch_of_reader {w : CmdWord} (f : KeyStore → Block)
    (hexec : ∀ s, execWord w s = requireKey (fun u => respond statusOk (f u.ks) u) s)
    (harch : ∀ a : Arch, a.exec w =
      if a.kv = false then { a with rspStatus := statusNoKey, rspData := 0 }
      else { a with rspStatus := statusOk, rspData := f a.ks }) (s : State) :
    ∃ t, execWord w s = .next t ∧ t.arch = s.arch.exec w := by
  refine ⟨_, (hexec s).trans (requireKey_respond f s), ?_⟩
  rw [harch]
  cases hkv : s.kv <;> simp [State.arch, hkv]

/-- Settles O35, by the op field: KEYGEN and the reserved ops answer one thing from every state, the other three are readers. -/
theorem execIsTheTransactionStepOfTheSpec : Obligations.ExecIsTheTransactionStepOfTheSpec := by
  intro w s
  obtain ⟨hkeygen, hencrypt, hdecrypt, hrdkey, -⟩ := everyWordDecodesByItsOpField w
  rcases op_cases (opField w) with ⟨hop | hop | hop | hop, hmsb⟩ | ⟨hreserved, -⟩
  · exact ⟨_, congrArg (exec · s) (hkeygen hop), ((if_neg (by simp [hmsb])).trans (if_pos hop)).symm⟩
  · exact execWord_arch_of_reader (fun ks => transform (dataField w) ks false) (fun u => congrArg (exec · u) (hencrypt hop))
      (fun a => by simp [Arch.exec, hop, statusOk, statusNoKey]) s
  · exact execWord_arch_of_reader (fun ks => transform (dataField w) ks true) (fun u => congrArg (exec · u) (hdecrypt hop))
      (fun a => by simp [Arch.exec, hop, BitVec.msb_eq_decide, statusOk, statusNoKey]) s
  · exact execWord_arch_of_reader (fun ks => zext64 (keyOperand ks (idxField w))) (fun u => congrArg (exec · u) (hrdkey hop))
      (fun a => by simp [Arch.exec, hop, BitVec.msb_eq_decide, statusOk, statusNoKey]) s
  · exact ⟨_, congrArg (exec · s) (decodeWord_of_reserved hreserved), (if_pos hreserved).symm⟩

end Sys2Proof.Machine
end

section
/-! Each kind of edge as an equation on the step, and what stops it (R107, R108, R112, R113, R118). -/

namespace Sys2Proof.Machine

/-- A reset edge acts whatever else the pins show and whatever is in flight. -/
theorem step_reset {s : State} (hr : s.nextPins.rst = true) : step s = .next (s.dropPins.resetEdge s.nextPins) := if_pos hr

/-- The edge at which an idle core accepts what the pins raise, at pins that keep the duty. -/
theorem step_acceptance {s : State} (hb : s.busy = false) (hr : s.nextPins.rst = false) (hv : s.nextPins.cmdValid = true)
    (hd : breaksDuty s s.nextPins = false) : step s = .next (s.dropPins.acceptEdge s.nextPins) := by
  have hd' : breaksDuty s.dropPins s.nextPins = false := hd
  simp [step, clockEdge, accepts, cmdReady, hr, hd', hb, hv]

/-- The completion edge is `Exec(σ, w)` of the captured word. -/
theorem step_completion {s : State} (hb : s.busy = true) (hl : s.latLeft ≤ 1) (hr : s.nextPins.rst = false)
    (hd : breaksDuty s s.nextPins = false) :
    step s = execWord s.cmdWord { s with pins := s.pins.tail, offer := s.offer.after s.nextPins } := by
  have hd' : breaksDuty s.dropPins s.nextPins = false := hd
  have hedge : clockEdge s.nextPins s.dropPins = completeEdge s.nextPins s.dropPins := by simp [clockEdge, hr, hd', hb, hl]
  exact hedge

/-- What the completion edge leaves: the architecture by R120, the completion signals, and the host's side of the handshake. -/
theorem step_completes {s : State} (hb : s.busy = true) (hl : s.latLeft ≤ 1) (hr : s.nextPins.rst = false)
    (hd : breaksDuty s s.nextPins = false) :
    ∃ t, step s = .next t ∧ t.arch = s.arch.exec s.cmdWord ∧ t.rspValid = true ∧ t.busy = false ∧ t.pins = s.pins.tail ∧
      t.offer = s.offer.after s.nextPins := by
  obtain ⟨t, ht, harch⟩ :=
    execIsTheTransactionStepOfTheSpec s.cmdWord { s with pins := s.pins.tail, offer := s.offer.after s.nextPins }
  obtain ⟨hvalid, hbusy⟩ := exec_signals ht
  obtain ⟨hpins, hoffer, -⟩ := commandsWriteOnlyTheirTableRow _ _ t ht
  exact ⟨t, (step_completion hb hl hr hd).trans ht, harch, hvalid, hbusy, hpins, hoffer⟩

/-- Settles O42: State.reset is written with these values. -/
theorem resetStateHoldsTheResetValues : Obligations.ResetStateHoldsTheResetValues := ⟨rfl, rfl, rfl, rfl, rfl⟩

/-- Settles O43: the reset edge leaves `resetEdge`, and cmd_ready is down while `rst` is up. -/
theorem resetEdgeActsFromEveryState : Obligations.ResetEdgeActsFromEveryState := by
  intro s hr
  have hready : cmdReady s s.nextPins = false := by simp [cmdReady, hr]
  exact ⟨_, step_reset hr, rfl, rfl, rfl, rfl, rfl, by simp [accepts, hready], hready, rfl⟩

/-- Settles O44: the completion edge, at one edge left. -/
theorem stepRunsTheCommandInFlight : Obligations.StepRunsTheCommandInFlight := by
  intro s i hb hl hr hd hdecode
  rw [step_completion hb hl.le hr hd, execWord, hdecode]

/-- Settles O46: cmd_ready at the edge says that no command is in flight, and the edge leaves `acceptEdge`. -/
theorem acceptanceCapturesTheCommand : Obligations.AcceptanceCapturesTheCommand := by
  intro s hr hv hready hd
  have hb : s.busy = false := by simpa [cmdReady, hr] using hready
  exact ⟨_, step_acceptance hb hr hv hd, rfl, rfl, rfl, rfl, fun _ => rfl, rfl, rfl, rfl⟩

/-- Settles O47, by what the completion edge leaves. -/
theorem completionEdgeCommitsAtOnce : Obligations.CompletionEdgeCommitsAtOnce := by
  intro s hb hl hr hd
  obtain ⟨t, hstep, harch, hvalid, hbusy, -, -⟩ := step_completes hb hl hr hd
  exact ⟨t, hstep, harch, hvalid, hbusy⟩

theorem withFetchWord_toNat (s : State) (w : CmdWord) : s.withFetchWord 72 w.toNat = s.placeCommand w := by
  have hlt : w.toNat < 2 ^ 72 := by omega
  rw [State.withFetchWord, Nat.mod_eq_of_lt hlt, BitVec.ofNat_toNat, BitVec.setWidth_eq]

theorem decodeTableWord_toNat (w : CmdWord) : decodeTableWord 72 w.toNat = some (decodeWord w) := by
  have hlt : w.toNat < 2 ^ 72 := by omega
  rw [decodeTableWord, Nat.mod_eq_of_lt hlt, wordOfNat_toNat, Option.map_some]

/-- The step after a word is placed is `Exec` of that word: the pins that hold keep the duty and change nothing in what stands. -/
theorem step_placeCommand (s : State) (w : CmdWord) :
    ∃ u : State, u.arch = s.arch ∧ u.pins = s.pins ∧ u.offer = s.offer ∧ step (s.placeCommand w) = execWord w u := by
  have hnext : (s.placeCommand w).nextPins = Pins.holding s.offer := rfl
  have hd : breaksDuty (s.placeCommand w) (s.placeCommand w).nextPins = false := by simp [breaksDuty, hnext]
  have hword : (s.placeCommand w).cmdWord = w := packWord_fields w
  have hstep := step_completion rfl le_rfl (by simp [hnext]) hd
  rw [hword] at hstep
  refine ⟨_, ?arch, ?pins, ?offer, hstep⟩
  case offer => exact after_holding s.offer
  all_goals rfl

/-- Settles O45: the word reads back as its command, and the placed state completes it. -/
theorem placedWordRunsNext : Obligations.PlacedWordRunsNext := by
  intro s i hwf
  obtain ⟨u, harch, hpins, hoffer, hstep⟩ := step_placeCommand s (encodeWord i)
  obtain ⟨t, ht, -⟩ := execIsTheTransactionStepOfTheSpec (encodeWord i) u
  obtain ⟨hpins', hoffer', -⟩ := commandsWriteOnlyTheirTableRow _ u t ht
  have hexec : exec i u = .next t := by rwa [execWord, decodeWord_encodeWord hwf] at ht
  refine ⟨?_, u, t, harch, hexec, ?_, hpins'.trans hpins, hoffer'.trans hoffer⟩
  · rw [decodeTableWord_toNat, decodeWord_encodeWord hwf]
  · rw [withFetchWord_toNat, hstep, ht]

theorem busy_false_of_completion {s t : State} (h : step s = .next t) (hc : s.completesNext = true) : t.busy = false := by
  rcases step_arch_cases h with ⟨-, hc', -⟩ | ⟨-, -, -, u, -, hexec⟩ | ⟨-, hc', -⟩
  · simp [hc] at hc'
  · exact (exec_signals hexec).2
  · simp [hc] at hc'

/-- Settles O52: a completion leaves no command in flight, so the core is ready, and the next edge accepts. -/
theorem nextCommandIsAcceptedRightAfterCompletion : Obligations.NextCommandIsAcceptedRightAfterCompletion := by
  intro s t hstep hc hr hv hd
  have hb : t.busy = false := busy_false_of_completion hstep hc
  have hvalid : t.rspValid = true := (rspValid_of_step hstep).trans hc
  exact ⟨by simp [cmdReady, hb, hr], hvalid, _, step_acceptance hb hr hv hd, rfl, rfl⟩

/-! What stops a step, and which word stands after it. -/

/-- The duty of R112 as the host sees it: a word that stands is no longer raised, and no reset is asserted. -/
theorem breaksDuty_iff {s : State} {p : Pins} :
    breaksDuty s p = true ↔ p.rst = false ∧ ∃ w, s.offer = .standing w ∧ p.raised ≠ some w := by
  cases ho : s.offer <;> simp [breaksDuty, Offer.allows, ho]

/-- A host that keeps the duty is refused at no edge. -/
theorem step_eq_next {s : State} (hd : breaksDuty s s.nextPins = false) : ∃ t, step s = .next t := by
  cases hr : s.nextPins.rst with
  | true => exact ⟨_, step_reset hr⟩
  | false =>
    cases hb : s.busy with
    | true =>
      by_cases hl : s.latLeft ≤ 1
      · obtain ⟨t, hstep, -⟩ := step_completes hb hl hr hd
        exact ⟨t, hstep⟩
      · exact ⟨_, step_in_flight hb (by omega) hr hd⟩
    | false =>
      cases hv : s.nextPins.cmdValid with
      | true => exact ⟨_, step_acceptance hb hr hv hd⟩
      | false => exact ⟨_, step_idle hb hr hv hd⟩

/-- The edge at which the host's duty is seen broken is refused (R118, U4). -/
theorem step_of_breaksDuty {s : State} (hd : breaksDuty s s.nextPins = true) : step s = .refused .hostBrokeDuty := by
  obtain ⟨hr, -⟩ := breaksDuty_iff.mp hd
  have hd' : breaksDuty s.dropPins s.nextPins = true := hd
  simp [step, clockEdge, hr, hd']

/-- What stands after an edge is said by the pins, but an acceptance discharges the duty. -/
theorem offer_of_step {s t : State} (h : step s = .next t) :
    t.offer = if accepts s s.nextPins then .leftHigh else s.offer.after s.nextPins := by
  rcases step_cases h with ⟨hr, rfl⟩ | ⟨-, -, hb, -, hexec⟩ | ⟨-, -, hb, -, rfl⟩ | ⟨hr, -, hb, hv, rfl⟩ | ⟨-, -, -, hv, rfl⟩
  · simp [accepts, cmdReady, hr]
  · obtain ⟨-, hoffer, -⟩ := commandsWriteOnlyTheirTableRow _ _ t hexec
    simp [accepts, cmdReady, hb, hoffer]
  · simp [accepts, cmdReady, hb]
  · simp [accepts, cmdReady, hr, hb, hv]
  · simp [accepts, hv]

/-- Settles O54: the step goes on or is refused according to `breaksDuty`, and `Offer.after` says which word stands. -/
theorem stepStopsOnlyOnABrokenHostDuty : Obligations.StepStopsOnlyOnABrokenHostDuty := by
  refine fun s => ⟨fun r => ?_, nofun, fun t h => ?_⟩
  · rw [← breaksDuty_iff]
    cases hd : breaksDuty s s.nextPins with
    | true => simp [step_of_breaksDuty hd, eq_comm]
    | false =>
      obtain ⟨t, ht⟩ := step_eq_next hd
      simp [ht]
  · have hoffer := offer_of_step h
    refine ⟨fun hv => ?_, fun ha => ?_, fun hv ha => ⟨fun ho => ?_, fun ho => ?_⟩⟩
    · simp [hoffer, accepts, hv]
    · simp [hoffer, ha]
    · simp [hoffer, ha, ho, hv]
    · simp [hoffer, ha, after_of_raise hv ho]

end Sys2Proof.Machine
end

section
/-! One accepted command as a run of the clock: completed after its latency, or aborted by a reset (R109, R112, R113, R119). -/

namespace Sys2Proof.Machine

/-! A last edge after a run. -/

theorem runEdges_snoc {n : Nat} {s t u : State} (hrun : runEdges n s = .next t) (hstep : step t = .next u) :
    runEdges (n + 1) s = .next u :=
  (runEdges_add hrun).trans (runEdges_succ hstep)

theorem clockResponses_snoc {n : Nat} {s t u : State} (hrun : runEdges n s = .next t) (hstep : step t = .next u) :
    clockResponses (n + 1) s = clockResponses n s ++ if u.rspValid then [u.response] else [] := by
  rw [clockResponses_add hrun, clockResponses_succ hstep, clockResponses, List.append_nil]

theorem clockMoves_snoc {n : Nat} {s t u : State} (hrun : runEdges n s = .next t) (hstep : step t = .next u) :
    clockMoves (n + 1) s = clockMoves n s ++ t.moveOfEdge := by
  rw [clockMoves_add hrun, clockMoves_succ hstep, clockMoves, List.append_nil]

/-- An idle core accepts the word it is shown and has it in flight for as long as fewer edges than its latency have passed. -/
theorem runEdges_accept {s : State} {w : CmdWord} {ps rest : List Pins} (hb : s.busy = false)
    (ho : ∀ v, s.offer = .standing v → v = w) (hlt : ps.length < latency (decodeWord w) s.kv)
    (hk : keepsDuty .leftHigh ps = true) (hp : s.pins = Pins.raising w :: ps ++ rest) :
    ∃ t, runEdges (1 + ps.length) s = .next t ∧ t.arch = s.arch ∧ t.busy = true ∧ t.rspValid = false ∧ t.cmdWord = w ∧
      t.latLeft = latency (decodeWord w) s.kv - ps.length ∧ t.offer = Offer.leftHigh.afterAll ps ∧ t.pins = rest ∧
      clockResponses (1 + ps.length) s = [] ∧ clockMoves (1 + ps.length) s = [] := by
  have hstep : step s = .next (s.dropPins.acceptEdge (Pins.raising w)) := step_accept hb ho hp
  have hnext : s.nextPins = Pins.raising w := nextPins_cons _ _ _ hp
  have hmoves : s.moveOfEdge = [] :=
    moveOfEdge_of_neither (by rw [hnext]; rfl) (by simp [State.completesNext, hb])
  obtain ⟨t, hrun, harch, hbusy, hvalid, hword, hleft, hoffer, hpins, hresponses, hmoves'⟩ :=
    runEdges_wait ps (s.dropPins.acceptEdge (Pins.raising w)) rest rfl (by simpa using hlt) rfl hk (by simp [hp])
  rw [Nat.add_comm 1, runEdges_succ hstep, clockResponses_succ hstep, clockMoves_succ hstep, hresponses, hmoves, hmoves']
  refine ⟨t, hrun, harch, hbusy, hvalid, ?_, ?_, hoffer, hpins, rfl, rfl⟩
  · exact hword.trans (word_raising w)
  · simpa using hleft

/-- A dutiful stretch goes on with pins that assert no reset and keep the duty for what stands after it. -/
theorem keepsDuty_snoc {o : Offer} {ps : List Pins} {p : Pins} :
    keepsDuty o (ps ++ [p]) = true ↔ keepsDuty o ps = true ∧ p.rst = false ∧ (o.afterAll ps).allows p = true := by
  simp [keepsDuty_append, keepsDuty]

/-- An accepted command completes with the last edge of its latency, as `Exec(σ, w)`. -/
theorem runEdges_command {s : State} {w : CmdWord} {ps rest : List Pins} (hb : s.busy = false)
    (ho : ∀ v, s.offer = .standing v → v = w) (hlen : ps.length = latency (decodeWord w) s.kv)
    (hk : keepsDuty .leftHigh ps = true) (hp : s.pins = Pins.raising w :: ps ++ rest) :
    ∃ t, runEdges (1 + ps.length) s = .next t ∧ t.arch = s.arch.exec w ∧ t.rspValid = true ∧ t.busy = false ∧ t.pins = rest ∧
      t.offer = Offer.leftHigh.afterAll ps ∧ clockResponses (1 + ps.length) s = [t.response] ∧
      clockMoves (1 + ps.length) s = [.command w] := by
  rcases List.eq_nil_or_concat' ps with rfl | ⟨qs, p, rfl⟩
  · have := one_le_latency (decodeWord w) s.kv
    simp at hlen
    omega
  rw [List.length_append, List.length_singleton] at hlen
  obtain ⟨hk, hr, hallows⟩ := keepsDuty_snoc.mp hk
  obtain ⟨t, hrun, harch, hbusy, -, hword, hleft, hoffer, hpins, hresponses, hmoves⟩ :=
    runEdges_accept (rest := p :: rest) hb ho (by omega) hk (by simpa using hp)
  have hnext : t.nextPins = p := nextPins_cons _ _ _ hpins
  have hlast : t.latLeft ≤ 1 := by omega
  have hr' : t.nextPins.rst = false := hnext ▸ hr
  have hd : breaksDuty t t.nextPins = false := by simp [breaksDuty, hnext, hoffer, hallows]
  obtain ⟨u, hstep, harch', hvalid, hbusy', hpins', hoffer'⟩ := step_completes hbusy hlast hr' hd
  have hcompletes : t.completesNext = true := by simp [State.completesNext, hr', hbusy, hlast]
  have hlength : 1 + (qs ++ [p]).length = 1 + qs.length + 1 := by simp; omega
  rw [hlength]
  refine ⟨u, runEdges_snoc hrun hstep, ?_, hvalid, hbusy', ?_, ?_, ?_, ?_⟩
  · rw [harch', harch, hword]
  · rw [hpins', hpins, List.tail_cons]
  · rw [hoffer', hoffer, hnext, Offer.afterAll, Offer.afterAll, List.foldl_concat]
  · rw [clockResponses_snoc hrun hstep, hresponses, if_pos hvalid, List.nil_append]
  · rw [clockMoves_snoc hrun hstep, hmoves, moveOfEdge_of_completion hr' hcompletes, hword, List.nil_append]

/-- Settles O57: the whole run is `runEdges_command`, and each earlier point is `runEdges_accept` on the samples up to it. -/
theorem acceptedCommandIsOneTransaction : Obligations.AcceptedCommandIsOneTransaction := by
  refine ⟨fun s w ps rest hb ho hlen hk hp => ⟨?whole, fun k hlt => ?point⟩,
    fun _ _ _ _ => ⟨rfl, rfl, rfl, rfl, rfl, rfl, rfl, rfl⟩, Nat.le_add_left 1 _, Nat.le_add_left 1 _, Nat.le_add_left 1 _,
    Nat.le_add_left 1 _⟩
  case whole =>
    obtain ⟨t, hrun, harch, hvalid, hbusy, hpins, hoffer, hresponses, -⟩ := runEdges_command hb ho hlen hk hp
    exact ⟨t, hrun, harch, hvalid, hbusy, hpins, hoffer, hresponses⟩
  case point =>
    have hlength : (ps.take k).length = k := List.length_take_of_le hlt.le
    rw [← List.take_append_drop k ps, keepsDuty_append, Bool.and_eq_true] at hk
    obtain ⟨t, hrun, harch, hbusy, hvalid, hword, hleft, hoffer, hpins, -, -⟩ :=
      runEdges_accept (ps := ps.take k) (rest := ps.drop k ++ rest) hb ho (by omega) hk.1 (by simp [hp, ← List.append_assoc])
    rw [hlength] at hrun hleft
    exact ⟨t, hrun, harch, hvalid, hbusy, hword, hlen ▸ hleft, hoffer, hpins⟩

/-- A command in flight for fewer edges than its latency is lost at a reset edge. -/
theorem runEdges_aborted {s : State} {w : CmdWord} {ps : List Pins} {r : Pins} {rest : List Pins} (hb : s.busy = false)
    (ho : ∀ v, s.offer = .standing v → v = w) (hlt : ps.length < latency (decodeWord w) s.kv)
    (hk : keepsDuty .leftHigh ps = true) (hr : r.rst = true) (hp : s.pins = Pins.raising w :: ps ++ r :: rest) :
    ∃ t, runEdges (ps.length + 2) s = .next t ∧ t.arch.SameToHost s.resetRegisters.arch ∧ t.busy = false ∧
      t.rspValid = false ∧ t.pins = rest ∧ t.offer = (Offer.leftHigh.afterAll ps).after r ∧
      clockResponses (ps.length + 2) s = [] ∧ clockMoves (ps.length + 2) s = [.reset] := by
  obtain ⟨t, hrun, -, -, -, -, -, hoffer, hpins, hresponses, hmoves⟩ := runEdges_accept hb ho hlt hk hp
  have hnext : t.nextPins = r := nextPins_cons _ _ _ hpins
  have hstep : step t = .next (t.dropPins.resetEdge r) := hnext ▸ step_reset (hnext ▸ hr)
  rw [show ps.length + 2 = 1 + ps.length + 1 by omega]
  refine ⟨_, runEdges_snoc hrun hstep, resetRegisters_sameToHost t.dropPins s, rfl, rfl, ?_, ?_, ?_, ?_⟩
  · exact congrArg List.tail hpins
  · exact congrArg (Offer.after · r) hoffer
  · rw [clockResponses_snoc hrun hstep, hresponses]
    rfl
  · rw [clockMoves_snoc hrun hstep, hmoves, moveOfEdge_of_reset (hnext ▸ hr), List.nil_append]

/-- Settles O58, by the run of the aborted command. -/
theorem resetAbortsTheCommandInFlight : Obligations.ResetAbortsTheCommandInFlight := by
  intro s w ps r rest hb ho hlt hk hr hp
  obtain ⟨t, hrun, hsame, hbusy, hvalid, hpins, hoffer, hresponses, -⟩ := runEdges_aborted hb ho hlt hk hr hp
  exact ⟨⟨t, hrun, hsame, hbusy, hvalid, hpins, hoffer⟩, hresponses⟩

end Sys2Proof.Machine
end

section
/-! Runs at the transaction level as runs of the clock (R109, R111, R113, R120): pins for each move, joined move after move. -/

namespace Sys2Proof.Machine

/-- What a host drives at an idle core to make one move: quiet pins while a command is in flight, so that nothing is raised. -/
def Move.pins (m : Move) (kv : Bool) : List Pins :=
  match m with
  | .command w => Pins.raising w :: List.replicate (latency (decodeWord w) kv) Pins.quiet
  | .reset => [Pins.resetting]
  | .aborted w => [Pins.raising w, Pins.resetting]

/-- No command in flight and no word to be held. -/
def State.Idle (s : State) : Prop := s.busy = false ∧ ∀ w, s.offer ≠ .standing w

/-- Quiet pins while a command is in flight keep the duty, and no word stands after them. -/
theorem afterAll_quiet_ne_standing (n : Nat) (w : CmdWord) :
    Offer.leftHigh.afterAll (List.replicate n Pins.quiet) ≠ .standing w := by
  cases n with
  | zero => exact nofun
  | succ n =>
    rw [List.replicate_succ', Offer.afterAll, List.foldl_concat, after_of_low rfl]
    exact nofun

/-- The pins of a move make that move and leave the core idle. -/
theorem runEdges_move (m : Move) {s : State} {rest : List Pins} (hs : s.Idle) (hp : s.pins = m.pins s.kv ++ rest) :
    ∃ t, runEdges (m.pins s.kv).length s = .next t ∧ t.Idle ∧ t.pins = rest ∧
      clockMoves (m.pins s.kv).length s = [m.atClock] := by
  obtain ⟨hb, hstanding⟩ := hs
  have ho : ∀ w v, s.offer = .standing v → v = w := fun _ v h => absurd h (hstanding v)
  cases m with
  | command w =>
    obtain ⟨t, hrun, -, -, hbusy, hpins, hoffer, -, hmoves⟩ :=
      runEdges_command (rest := rest) hb (ho w) List.length_replicate (keepsDuty_replicate rfl _ rfl) hp
    rw [Nat.add_comm 1] at hrun hmoves
    exact ⟨t, hrun, ⟨hbusy, fun v => hoffer ▸ afterAll_quiet_ne_standing _ v⟩, hpins, hmoves⟩
  | reset =>
    have hnext : s.nextPins = Pins.resetting := nextPins_cons _ _ _ hp
    have hr : s.nextPins.rst = true := hnext ▸ rfl
    have hstep := step_reset hr
    refine ⟨_, runEdges_succ hstep, ⟨rfl, fun v => ?_⟩, congrArg List.tail hp, ?_⟩
    · simp [hnext, Pins.resetting, Pins.quiet]
    · exact (clockMoves_succ hstep).trans (congrArg (· ++ []) (moveOfEdge_of_reset hr))
  | aborted w =>
    obtain ⟨t, hrun, -, hbusy, -, hpins, hoffer, -, hmoves⟩ :=
      runEdges_aborted (ps := []) hb (ho w) (one_le_latency _ _) rfl rfl hp
    exact ⟨t, hrun, ⟨hbusy, fun v => hoffer ▸ nofun⟩, hpins, hmoves⟩

/-- A move as the clock shows it does the same and answers the same (R109). -/
theorem responses_map_atClock (ms : List Move) : ∀ s, responses (ms.map Move.atClock) s = responses ms s := by
  induction ms with
  | nil => exact fun _ => rfl
  | cons m ms ih =>
    intro s
    obtain ⟨t, ht⟩ := apply_eq_next m s
    have ht' : m.atClock.apply s = .next t := by rw [← ht]; cases m <;> rfl
    have hobserve : m.atClock.observe t = m.observe t := by cases m <;> rfl
    rw [List.map_cons, responses_cons ht, responses_cons ht', ih, hobserve]

theorem afterMoves_map_atClock (ms : List Move) : ∀ s, afterMoves (ms.map Move.atClock) s = afterMoves ms s := by
  induction ms with
  | nil => exact fun _ => rfl
  | cons m ms ih =>
    intro s
    obtain ⟨t, ht⟩ := apply_eq_next m s
    have ht' : m.atClock.apply s = .next t := by rw [← ht]; cases m <;> rfl
    rw [List.map_cons, afterMoves_cons ht, afterMoves_cons ht', ih]

/-- A run of the clock that makes the moves `ms` signals their responses, and ends where they do, as far as the host can tell,
whatever the host drives. -/
theorem run_of_clockMoves_eq {n : Nat} {s t : State} {ps : List Pins} {ms : List Move}
    (hrun : runEdges n { s with pins := ps } = .next t) (hmoves : clockMoves n { s with pins := ps } = ms.map Move.atClock) :
    clockResponses n { s with pins := ps } = responses ms s ∧ t.arch.SameToHost (afterMoves ms s).arch := by
  obtain ⟨hresponses, hafter⟩ := clockRunsAreTransactionRuns n _ t hrun
  obtain ⟨hsameResponses, hsameAfter⟩ :=
    unspecifiedStateIsNeverObserved ms { s with pins := ps } s (sameToHost_of_arch_eq rfl)
  rw [hmoves, responses_map_atClock, hsameResponses] at hresponses
  rw [hmoves, afterMoves_map_atClock] at hafter
  exact ⟨hresponses, sameToHost_trans hafter hsameAfter⟩

/-- Pins for a whole sequence of moves, by induction on its last move: how long a command takes is settled by the KV that the
moves before it leave, whatever the host drives after them. -/
theorem exists_pins_of_moves (ms : List Move) {s : State} (hs : s.Idle) :
    ∃ ps : List Pins, ∀ rest, ∃ t, runEdges ps.length { s with pins := ps ++ rest } = .next t ∧ t.Idle ∧ t.pins = rest ∧
      clockMoves ps.length { s with pins := ps ++ rest } = ms.map Move.atClock := by
  induction ms using List.reverseRecOn with
  | nil => exact ⟨[], fun rest => ⟨_, rfl, hs, rfl, rfl⟩⟩
  | append_singleton ms m ih =>
    obtain ⟨ps, hps⟩ := ih
    refine ⟨ps ++ m.pins (afterMoves ms s).kv, fun rest => ?_⟩
    obtain ⟨t, hrun, hidle, hpins, hmoves⟩ := hps (m.pins (afterMoves ms s).kv ++ rest)
    obtain ⟨-, hkv, -⟩ := run_of_clockMoves_eq hrun hmoves
    have hkv : t.kv = (afterMoves ms s).kv := hkv
    rw [← hkv] at hpins hrun hmoves ⊢
    obtain ⟨u, hrun', hidle', hpins', hmoves'⟩ := runEdges_move m hidle hpins
    rw [List.length_append, List.append_assoc, clockMoves_add hrun, hmoves, hmoves', List.map_append]
    exact ⟨u, (runEdges_add hrun).trans hrun', hidle', hpins', rfl⟩

/-- Settles O60: the pins of the moves make them, and O59 says what such a run shows. -/
theorem transactionRunsAreClockRuns : Obligations.TransactionRunsAreClockRuns := by
  intro ms s hb hstanding
  obtain ⟨ps, hps⟩ := exists_pins_of_moves ms ⟨hb, hstanding⟩
  obtain ⟨t, hrun, ⟨hbusy, hoffer⟩, -, hmoves⟩ := hps []
  rw [List.append_nil] at hrun hmoves
  obtain ⟨hresponses, hafter⟩ := run_of_clockMoves_eq hrun hmoves
  exact ⟨ps, t, hrun, hbusy, hoffer, hmoves, hresponses, hafter⟩

end Sys2Proof.Machine
end
